-- ==== Sys2Proof/Word.lean ====
section
/-! DEFINITION. The byte type of the four lines and the plainest arithmetic: an addition that saturates
(0.8 Quantities) and a map over a fixed-length table. -/

namespace Sys2Proof

/-- A byte on one of the four lines (R209). -/
abbrev Byte := BitVec 8

/-- 0.8 Quantities: "A counter said to saturate stays at its largest value when a further increase would
pass it." -/
def satAdd (top a b : Nat) : Nat := min top (a + b)

/-- Apply `f` to every entry of a table of fixed length. -/
def vmap {α β : Type} {n : Nat} (f : α → β) (v : Vector α n) : Vector β n :=
  ⟨⟨v.toList.map f⟩, by simp⟩

end Sys2Proof
end

