-- ==== Sys2Proof/Syntax.lean ====
section
/-! DEFINITION. The commands of the CC-32: one constructor per row of spec/opcode_table.json. Operands are
the fields of the frame or the data of the event, as raw numbers, so that a field can lie outside its
range and be refused by the rule that owns it (R196). -/

namespace Sys2Proof

/-- One field of CONFIGURE as sent (12.5): the marker byte (0 value given, 1 DEFAULT) and the value. -/
structure CfgField where
  marker : Nat
  value : Nat
  deriving DecidableEq, Repr

/-- One plan entry of ADMIT as sent (12.5). -/
structure PlanField where
  program : Nat
  temp : Nat
  retests : Nat
  deriving DecidableEq, Repr

/-- A handler with its kit and grade code, as DOCK, PARK and the parked list of STATUS carry it (12.4). -/
structure HandlerField where
  handler : Nat
  kit : Nat
  grade : Nat
  deriving DecidableEq, Repr

/-- A floor hold as HOLD and the floor-hold list of STATUS carry it (12.4). -/
structure HoldField where
  program : Nat
  tag : Nat
  reason : Nat
  deriving DecidableEq, Repr

/-- The payload of a STATUS bulletin (R115). -/
structure StatusField where
  cellState : Nat
  queued : Nat
  handler : Nat
  kit : Nat
  grade : Nat
  parked : List HandlerField
  holds : List HoldField
  deriving DecidableEq, Repr

/-- The commands. Each constructor's mnemonic stands in LAWS.json. -/
inductive Instr where
  -- requests of the cell terminal (chapter 11)
  | configure (fields : List CfgField)
  | join
  | restart
  | statusRequest
  | read (table slot first count : Nat)
  | retry
  | admitLot (lotId product kit cls qty planCount : Nat) (plan : List PlanField)
  | withdraw (lotId : Nat)
  | dispose (lotId reason flags detail tag disposition : Nat)
  | placeHold (lotId note : Nat)
  | placeFloorHold (program reason : Nat)
  | liftFloor (tag : Nat)
  | override (origin tag : Nat)
  | clearSticky (lotId : Nat)
  | clearFault (bank : Nat)
  | setGrade (handler : Nat)
  | collect (number : Nat)
  | disposeRelease (number disposition : Nat)
  /-- a frame that fails its check; `crcPassed`: its CRC passed, `code`: its request code byte -/
  | badFrame (crcPassed : Bool) (code : Nat)
  | requestFrameDiscarded
  -- tester line (chapter 2)
  | loaded (program : Nat)
  | loadFail (code : Nat)
  | armed
  | armFail (code : Nat)
  /-- repeat count, entry count n, and the payload's remaining bytes as (site, bin) pairs -/
  | touchdown (repeats entryCount : Nat) (entries : List (Nat × Nat))
  | maskOk
  | idle
  | down
  | up (program : Nat)
  /-- `framePassed`: the message passed its frame check -/
  | testerBadMessage (framePassed : Bool)
  | silenceTimerExpiry
  | loadTimerExpiry
  | drainTimerExpiry
  | testerQueryTimer
  -- handler line (chapter 3)
  | hello (handler kit : Nat)
  | state (temp : Nat)
  | soaked (temp : Nat)
  | soakFail (code : Nat)
  | kitDone (kit : Nat)
  | kitFail (code : Nat)
  | index (interval : Nat) (continued : Bool)
  | unitLost (site : Nat)
  | passEnd (pass fed : Nat)
  | bye
  /-- `framePassed`: it passed its frame check; `carried`: the handler ID it carries, if any -/
  | handlerBadMessage (framePassed : Bool) (carried : Option Nat)
  | absenceTimerExpiry
  | leavingTimerExpiry
  | soakTimerExpiry
  | kitChangeTimerExpiry
  | handlerQueryTimer
  | readyChange (level : Bool)
  -- throughput (chapter 6)
  | periodEnd
  /-- `ms` whole milliseconds of effective run pass at TPM (R102, R111; log 4) -/
  | runTimeSecond (ms : Nat)
  -- floor line (chapter 7): frames heard
  | holdReceived (origin program tag reason : Nat)
  | liftReceived (origin program tag reason : Nat)
  | claimReceived (origin handler kit cls : Nat)
  | dockReceived (origin handler kit grade : Nat)
  | parkReceived (origin handler kit grade : Nat)
  | seekReceived (origin kit cls : Nat)
  | statusReceived (origin : Nat) (content : StatusField)
  | duplicateStation
  | floorFrameDropped
  | lineBusy
  -- floor line: own attempts and timers
  | attemptBegin
  | arbitrationLost
  | bulletinSent
  | transmitError
  | statusPeriodTimerExpiry
  | quietTimerExpiry
  | peerSilenceTimerExpiry (peer : Nat)
  -- handler assignment (chapter 8)
  | claimTimerExpiry (handler : Nat)
  | seekRepeatTimerExpiry
  | claimWindowExpiry
  | dockWaitExpiry
  | idleTimerExpiry
  -- shipment release (chapter 10)
  | delayExpiry (number : Nat)
  -- resets and clock (chapters 11, 12)
  /-- `byPin`: the RESET pin is at its low level; otherwise a supply rise -/
  | powerOnReset (byPin : Bool)
  /-- the strap levels read at the end of the reset, STN0 the least significant -/
  | powerOnResetEnd (straps : BitVec 5)
  /-- `byPin`: the RESET pin takes its middle level, with the strap levels at that moment, which are read where the
  pin comes from its low level (R212); none: RESTART after its response -/
  | warmReset (byPin : Option (BitVec 5))
  | warmResetEnd
  | joinClockMinute
  deriving DecidableEq, Repr

end Sys2Proof
end

