-- ==== Sys2Proof/Decode.lean ====
section
/-! DEFINITION. Words of the opcode table. No row of spec/opcode_table.json gives bits, so no word spells a
command; how the byte frames of the lines become commands is in Machine/Frames.lean. -/

namespace Sys2Proof

/-- The command that a word spells by the table's bits. The table gives bits to no row (DEDUCED, log 1). -/
def decodeTableWord (_nbits _w : Nat) : Option Instr := none

end Sys2Proof
end

