-- ==== Sys2Proof/Config.lean ====
section
/-! DEFINITION. The configuration block (R198), the fixed times (0.5) and the free values: bytes of READ
records that the manual names without giving their coding. -/

namespace Sys2Proof

/-- Bin class of bins 1 to 15 (R198, fields 1 to 15). -/
inductive BinClass where
  | pass
  | fail
  | retest
  deriving DecidableEq, Repr

/-- Rounding mode of the basis-point function (R80; R198 field 41). -/
inductive Rounding where
  | truncate
  | nearest
  deriving DecidableEq, Repr

/-- One bin's settings: class and floor-scope flag (fields 1 to 15), SBL limit (fields 16 to 30). -/
structure BinSetting where
  cls : BinClass
  floor : Bool
  sbl : Nat
  deriving DecidableEq, Repr

/-- The configuration block of R198. Times are in the units the table of R198 gives. -/
structure ConfigBlock where
  /-- bins 1 to 15, at index bin − 1 -/
  bins : Vector BinSetting 15
  windowSize : Nat
  windowYieldLimit : Nat
  windowFloor : Bool
  nMin : Nat
  siteDeltaLimit : Nat
  siteRunLimit : Nat
  siteDisable : Bool
  minSites : Nat
  finalYieldLimit : Nat
  missingLimit : Nat
  rounding : Rounding
  statusPeriod : Nat
  claimWindow : Nat
  dockWait : Nat
  idleRelease : Nat
  releaseDelay : Nat
  loadTimeout : Nat
  soakTimeout : Nat
  kitTimeout : Nat
  samplePeriod : Nat
  minUph : Nat
  jamThreshold : Nat
  jamLimit : Nat
  readyForced : Bool
  deriving DecidableEq, Repr

namespace Config

/-- R24: the silence timer runs 5 s. -/
def silenceMs : Nat := 5000
/-- R37: the drain timer of 5 s. -/
def drainMs : Nat := 5000
/-- R43: the absence timer runs 3 s. -/
def absenceMs : Nat := 3000
/-- R44: the 3 s leaving timer. -/
def leavingMs : Nat := 3000
/-- R23, R41: QUERY every 1 s. -/
def queryMs : Nat := 1000
/-- R144: the SEEK repeat timer (60 s). -/
def seekMs : Nat := 60000
/-- R127: the quiet timer of 10 s. -/
def quietMs : Nat := 10000
/-- R60: a result counter is 20 bits wide. -/
def countTop : Nat := 1048575

/-- R81, R98: the marker a READ of STATS carries for a yield that has no value. The manual does not give
its coding: a free value (DESIGN CHOICE, log 15). -/
opaque noYield : BitVec 16

/-- R110: the UPH of a skipped sample is "no value". The manual does not give its coding: a free value
(DESIGN CHOICE, log 15). -/
opaque noUph : BitVec 16

end Config

end Sys2Proof
end

