-- ==== Sys2Proof/Machine/State.lean ====
section
/-! DEFINITION. Every piece of state the manual gives the CC-32, block by block, as plain data; the outputs
it has put on its lines; the two ways a step could stop; and the state right after reset.

`State` is the command queue beside the `Device`. A command's meaning acts on the device alone. -/

namespace Sys2Proof.Machine

/-- A timer: stopped, or running with its remaining milliseconds (0.8 Times; log 2, log 3). -/
abbrev Timer := Option Nat

/-! ## Named values -/

/-- Device state (R197). -/
inductive DeviceState where
  | config
  | joined
  deriving DecidableEq, Repr

/-- Which reset is held (R212). -/
inductive ResetHold where
  | running
  | warm
  | powerOn
  deriving DecidableEq, Repr

/-- The three levels of the RESET pin (R212). -/
inductive PinLevel where
  | low
  | middle
  | high
  deriving DecidableEq, Repr

/-- Temperature class (R1), also the soaked class (3.3). -/
inductive TempClass where
  | room
  | hot
  | cold
  deriving DecidableEq, Repr

/-- Handler grade (6.4). -/
inductive Grade where
  | a
  | b
  | c
  deriving DecidableEq, Repr

/-- Lot state (1.4). -/
inductive LotState where
  | queued
  | staging
  | running
  | retest
  | closing
  | review
  | held
  deriving DecidableEq, Repr

/-- Resume step of a HELD lot (R2, R9). -/
inductive ResumeStep where
  | queued
  | staging
  | running
  | retest (k : Nat)
  | closing
  | review
  deriving DecidableEq, Repr

/-- Insertion step (R2). -/
inductive InsStep where
  | pass (k : Nat)
  | drain
  deriving DecidableEq, Repr

/-- Tester link state (R22). -/
inductive LinkState where
  | unknown
  | up
  | down
  | silent
  deriving DecidableEq, Repr

/-- Arm state (2.3). -/
inductive ArmState where
  | unarmed
  | sent
  | armed
  deriving DecidableEq, Repr

/-- State of a site in the site mask (2.4). -/
inductive SiteState where
  | enabled
  | disabling
  | disabled
  deriving DecidableEq, Repr

/-- Presence of the handler (3.2). -/
inductive Presence where
  | empty
  | present
  | absent
  | leaving
  deriving DecidableEq, Repr

/-- Outcome of the last evaluated sample (R110). -/
inductive SampleOutcome where
  | none
  | skipped
  | good
  | degraded
  deriving DecidableEq, Repr

/-- Station line state (7.5). -/
inductive LineState where
  | off
  | listen
  | active
  | quiet
  | barred
  deriving DecidableEq, Repr

/-- State of a peer record (R132). -/
inductive PeerState where
  | unheard
  | heard
  | silent
  deriving DecidableEq, Repr

/-- State of a handler table entry (R136). -/
inductive HandlerState where
  | unknown
  | free
  | claimed
  | docked
  deriving DecidableEq, Repr

/-- State of the need (R144). -/
inductive NeedState where
  | idle
  | seeking
  | claiming
  | won
  | kitChange
  deriving DecidableEq, Repr

/-- State of a release record (10.3). -/
inductive ReleaseState where
  | delayed
  | ready
  | recalled
  deriving DecidableEq, Repr

/-- Recall cause of a release record (R181). -/
inductive RecallCause where
  | entry (origin tag : Nat)
  | untracked
  deriving DecidableEq, Repr

/-- Fault severity, in rising order (11.4). -/
inductive Severity where
  | note
  | corrected
  | uncorrected
  deriving DecidableEq, Repr

/-- The four fault banks (11.4). -/
inductive BankName where
  | floor
  | handler
  | tester
  | accounting
  deriving DecidableEq, Repr

/-- The fault codes of the four banks (11.4). -/
inductive FaultCode where
  | peerSilent | lineQuiet | txqDropped | dockConflict | handlerMoved | claimBroken | dockWaitExpired
  | floorTableFull | txqRefused | duplicateStation
  | badMessage | notDocked | unexpected | dockChanged | handlerAbsent
  | soakFail | kitMismatch | kitFail | kitTimeout
  | resultUnarmed | testerDown | siteDisabled | loadMismatch | loadFail | loadTimeout | armFail
  | fedMismatch | stray | late | releaseQueueFull | overcount | holdSetFull | saturated
  deriving DecidableEq, Repr

/-- Response codes (R196). -/
inductive ResponseCode where
  | ok | notReady | badField | badState | notFound | full | duplicate | range | badFrame | locked
  deriving DecidableEq, Repr

/-! ## Lot records: LMG, RAU, STU and HDU fields -/

/-- A plan entry (R1). -/
structure PlanEntry where
  program : Nat
  temp : TempClass
  retests : Nat
  deriving DecidableEq, Repr

/-- The five sticky flags (R75), also the accounting marks (R76). -/
structure FlagSet where
  saturated : Bool
  overcount : Bool
  stray : Bool
  late : Bool
  maskDrop : Bool
  deriving DecidableEq, Repr

/-- The accumulator set (R60). -/
structure Accum where
  first : Vector Nat 16
  final : Vector Nat 16
  t1 : Nat
  pendingNow : Nat
  pendingNext : Nat
  unretested : Nat
  countingPass : Nat
  overcountMark : Bool
  deriving DecidableEq, Repr

/-- The window hold value (R82). -/
structure WindowValue where
  results : Nat
  pass : Nat
  yield : Nat
  deriving DecidableEq, Repr

/-- The statistics set (R82). -/
structure Stats where
  winResults : Nat
  winPass : Nat
  holdValue : Option WindowValue
  siteTested : Vector Nat 8
  sitePass : Vector Nat 8
  run : Vector Nat 8
  winLow : Bool
  binHigh : Bool
  deltaHigh : Bool
  deriving DecidableEq, Repr

/-- The close summary (R71, R96). -/
structure CloseSummary where
  insertion : Nat
  qIn : Nat
  t1 : Nat
  good : Nat
  reject : Nat
  missing : Nat
  excess : Nat
  closeTime : Nat
  finalYield : Nat
  missingShare : Nat
  deriving DecidableEq, Repr

/-- The key of a hold entry: its reason with its detail (R160). -/
inductive HoldKey where
  | window (tag : Option Nat)
  | bin (bin : Nat) (tag : Option Nat)
  | siteDelta (site : Nat)
  | siteRun (site : Nat)
  | count
  | final
  | operator (note : Nat)
  | remote (origin tag : Nat)
  | restart
  deriving DecidableEq, Repr

/-- A hold entry (R160). -/
structure HoldEntry where
  key : HoldKey
  insertion : Nat
  placed : Nat
  repeats : Nat
  untracked : Bool
  deriving DecidableEq, Repr

/-- A lot record (R1, R2) with the parts other blocks own. -/
structure Lot where
  id : Nat
  product : Nat
  kit : Nat
  cls : Nat
  seq : Nat
  plan : List PlanEntry
  cur : Nat
  qIn : Nat
  qFirst : Nat
  completed : Nat
  state : LotState
  resume : Option ResumeStep
  opened : Bool
  step : Option InsStep
  passStarted : Bool
  closeOnContinue : Bool
  releaseWaitNoted : Bool
  unseen : Bool
  holdCount : Nat
  runTime : Nat
  fedCounts : List (Nat × Nat)
  acc : Accum
  sticky : FlagSet
  marks : FlagSet
  stats : Stats
  summary : Option CloseSummary
  holds : List HoldEntry
  overflow : Bool
  deriving DecidableEq, Repr

/-- LMG: the lot table and the admission sequence counter (R1, R5). -/
structure Lmg where
  lots : Vector (Option Lot) 8
  sequence : Nat
  deriving DecidableEq, Repr

/-! ## TPT -/

/-- The load in flight (R25). -/
structure Load where
  program : Nat
  lot : Nat
  timer : Nat
  deriving DecidableEq, Repr

/-- The arm record (2.3). -/
structure ArmRecord where
  state : ArmState
  lot : Nat
  insertion : Nat
  program : Nat
  mask : BitVec 8
  deriving DecidableEq, Repr

structure Tpt where
  link : LinkState
  loaded : Nat
  load : Option Load
  loadBlocked : Option Nat
  arm : ArmRecord
  armRefused : Option Nat
  mask : Vector SiteState 8
  /-- the sets of sites of the MASK messages not yet acknowledged, oldest first -/
  outstanding : List (BitVec 8)
  lastClosed : Option Nat
  silence : Timer
  drain : Timer
  query : Timer
  /-- the lot the load served when last judged (R25, R27; log 14) -/
  target : Option Nat
  deriving DecidableEq, Repr

/-! ## HPT -/

/-- The soak in flight (R45). -/
structure Soak where
  cls : TempClass
  lot : Nat
  timer : Nat
  deriving DecidableEq, Repr

/-- The kit change in flight (R48). -/
structure KitChange where
  kit : Nat
  timer : Nat
  deriving DecidableEq, Repr

structure Hpt where
  presence : Presence
  handler : Option Nat
  kit : Nat
  absence : Timer
  leaving : Timer
  query : Timer
  soaked : Option TempClass
  /-- a STATE or SOAKED has come since the last dock, change of dock or return (R45) -/
  soakHeard : Bool
  soak : Option Soak
  soakBlocked : Option Nat
  /-- the lot the soak served when last judged (R45, R46; log 14) -/
  soakTarget : Option Nat
  kitChange : Option KitChange
  pass : Option Nat
  passHandler : Option Nat
  intake : Nat
  capAcc : Nat
  capSpoiled : Bool
  capFirst : Bool
  effRun : Bool
  deriving DecidableEq, Repr

/-! ## TPM -/

/-- The last sample record (R110). -/
structure LastSample where
  outcome : SampleOutcome
  handler : Option Nat
  results : Nat
  gateOn : Nat
  jams : Nat
  uph : Option Nat
  ended : Nat
  deriving DecidableEq, Repr

structure Tpm where
  sampled : Option Nat
  /-- stopped, or running with the elapsed milliseconds -/
  period : Timer
  results : Nat
  gateOn : Nat
  jams : Nat
  grade : Option Grade
  degrade : Nat
  recover : Nat
  last : LastSample
  carry : Nat
  deriving DecidableEq, Repr

/-! ## FLI -/

/-- A bulletin (7.1). A grade is absent only where no grade is known (code 0, R210). The content of a
STATUS is composed at each attempt (R117). -/
inductive Bulletin where
  | hold (program tag reason : Nat)
  | lift (program tag : Nat)
  | claim (handler kit cls : Nat)
  | dock (handler kit : Nat) (grade : Option Grade)
  | park (handler kit : Nat) (grade : Option Grade)
  | seek (kit cls : Nat)
  | status
  deriving DecidableEq, Repr

/-- A queued bulletin with its age stamp (R129). -/
structure QEntry where
  bulletin : Bulletin
  age : Nat
  deriving DecidableEq, Repr

/-- The transmit slot's content (R118, R121, R129). -/
structure TxSlot where
  bulletin : Bulletin
  age : Nat
  content : Option StatusField
  removal : Bool
  deriving DecidableEq, Repr

structure Peer where
  state : PeerState
  timer : Timer
  deriving DecidableEq, Repr

structure Fli where
  line : LineState
  station : Nat
  score : Nat
  rxErrors : Nat
  queue : List QEntry
  slot : Option TxSlot
  nextAge : Nat
  statusTimer : Timer
  quietTimer : Timer
  peers : Vector Peer 32
  busy : Bool
  deriving DecidableEq, Repr

/-! ## ASU -/

/-- A handler table entry (R136). -/
structure HandlerEntry where
  state : HandlerState
  station : Option Nat
  kit : Nat
  grade : Option Grade
  strength : Option Nat
  parkedBy : Option Nat
  timer : Timer
  deriving DecidableEq, Repr

/-- The need (R144), with the class of the last own CLAIM offered (R149). -/
structure Need where
  state : NeedState
  kit : Nat
  cls : Option Nat
  target : Option Nat
  barred : Bool
  passedOver : Option Nat
  claimSent : Bool
  lastClass : Option Nat
  seekTimer : Timer
  windowTimer : Timer
  dockWaitTimer : Timer
  deriving DecidableEq, Repr

structure Asu where
  /-- handlers 1 to 48, at index handler − 1 -/
  table : Vector HandlerEntry 48
  need : Need
  parked : List Nat
  idleTimer : Timer
  /-- the staging lot of LMG's latest report (R145; log 5) -/
  staging : Option Nat
  deriving DecidableEq, Repr

/-! ## HDU -/

/-- A floor-hold table entry (R167). -/
structure FloorHold where
  program : Nat
  origin : Nat
  tag : Nat
  reason : Nat
  stale : Bool
  deriving DecidableEq, Repr

structure Hdu where
  table : List FloorHold
  ownTag : Nat
  holdsInPlay : List Nat
  liftsInPlay : List Nat
  deriving DecidableEq, Repr

/-! ## RLU -/

/-- A release record (R181). -/
structure Release where
  number : Nat
  lotId : Nat
  product : Nat
  kit : Nat
  programs : List Nat
  completed : Nat
  qFirst : Nat
  qLast : Nat
  good : Nat
  reject : Nat
  missing : Nat
  excess : Nat
  attrition : Int
  finalYield : Nat
  runTime : Nat
  holdCount : Nat
  marks : FlagSet
  state : ReleaseState
  timer : Timer
  cause : Option RecallCause
  deriving DecidableEq, Repr

structure Rlu where
  records : List Release
  counter : Nat
  deriving DecidableEq, Repr

/-! ## CTP and pins -/

/-- The record of a fault bank (11.4). -/
structure FaultRecord where
  severity : Severity
  code : FaultCode
  reference : Nat
  time : Nat
  deriving DecidableEq, Repr

/-- A fault bank: VALID is set when a record is held (11.4). -/
structure FaultBank where
  record : Option FaultRecord
  overFlag : Bool
  deriving DecidableEq, Repr

structure Ctp where
  device : DeviceState
  config : Option ConfigBlock
  joinClock : Nat
  floorBank : FaultBank
  handlerBank : FaultBank
  testerBank : FaultBank
  accountingBank : FaultBank
  frameErrors : Nat
  waiting : List Instr
  hold : ResetHold
  /-- RESTART has been answered and its warm reset has not begun (R200; log 8) -/
  restartPending : Bool
  deriving DecidableEq, Repr

structure Pins where
  straps : BitVec 5
  ready : Bool
  resetPin : PinLevel
  feed : Bool
  attn : Bool
  deriving DecidableEq, Repr

/-! ## What has been put on the lines (log 18) -/

/-- Messages to the tester (2.1). -/
inductive TesterOut where
  | load (program : Nat)
  | arm (lot insertion program : Nat) (mask : BitVec 8)
  | mask (mask : BitVec 8)
  | halt
  | query
  deriving DecidableEq, Repr

/-- Messages to the handler (3.1). -/
inductive HandlerOut where
  | query
  | setpoint (cls : TempClass)
  | kit (kit : Nat)
  | startPass (pass count : Nat)
  | undock
  deriving DecidableEq, Repr

/-- A bulletin sent on the floor line, a STATUS with its content. -/
structure FloorOut where
  bulletin : Bulletin
  content : Option StatusField
  deriving DecidableEq, Repr

/-- A response: request code, response code, payload (11.1). -/
structure Response where
  request : Nat
  code : ResponseCode
  payload : List Byte
  deriving DecidableEq, Repr

structure Lines where
  testerOut : List TesterOut
  handlerOut : List HandlerOut
  floorOut : List FloorOut
  terminalOut : List Response
  deriving DecidableEq, Repr

/-! ## The device and the state -/

/-- Everything the manual gives the CC-32. -/
structure Device where
  ctp : Ctp
  lmg : Lmg
  tpt : Tpt
  hpt : Hpt
  tpm : Tpm
  fli : Fli
  asu : Asu
  hdu : Hdu
  rlu : Rlu
  pins : Pins
  lines : Lines
  deriving DecidableEq, Repr

/-- The machine: the commands waiting, first in first out, and the device. -/
structure State where
  pending : List Instr
  dev : Device
  deriving DecidableEq, Repr

/-- No command of the CC-32 stops it: what the manual calls a fault is a record in a fault bank (R206). The
type has no constructor, so no step can fault. -/
inductive Fault : Type
  deriving DecidableEq, Repr

/-- Why a command has no meaning. -/
inductive Refusal where
  /-- raised by an arm of `exec` for a command without a meaning; no arm raises it. Safe: it claims nothing. -/
  | notModelled (mnemonic : String)
  deriving DecidableEq, Repr

/-! ## Reset values -/

def FlagSet.clear : FlagSet := ⟨false, false, false, false, false⟩

/-- R60: every count 0, counting pass 0, overcount mark clear. -/
def Accum.zero : Accum := ⟨Vector.replicate 16 0, Vector.replicate 16 0, 0, 0, 0, 0, 0, false⟩

/-- R82: every counter 0, no window hold value, no current flag. -/
def Stats.zero : Stats :=
  ⟨0, 0, none, Vector.replicate 8 0, Vector.replicate 8 0, Vector.replicate 8 0, false, false, false⟩

/-- 2.3: clearing sets UNARMED and empties the other fields. -/
def ArmRecord.cleared : ArmRecord := ⟨.unarmed, 0, 0, 0, 0⟩

/-- R39. -/
def Tpt.reset : Tpt :=
  { link := .unknown, loaded := 0, load := none, loadBlocked := none, arm := .cleared, armRefused := none
    mask := Vector.replicate 8 .enabled, outstanding := [], lastClosed := none
    silence := none, drain := none, query := none, target := none }

/-- R59; the cleared index capture is that of R57. -/
def Hpt.reset : Hpt :=
  { presence := .empty, handler := none, kit := 0, absence := none, leaving := none, query := none
    soaked := none, soakHeard := false, soak := none, soakBlocked := none, soakTarget := none
    kitChange := none, pass := none, passHandler := none, intake := 0
    capAcc := 0, capSpoiled := true, capFirst := false, effRun := false }

/-- R110: NONE with its other fields empty. -/
def LastSample.empty : LastSample := ⟨.none, none, 0, 0, 0, none, 0⟩

/-- R113. -/
def Tpm.reset : Tpm :=
  { sampled := none, period := none, results := 0, gateOn := 0, jams := 0
    grade := none, degrade := 0, recover := 0, last := .empty, carry := 0 }

/-- R135; the station number is read from the straps at the end of the reset (R212). -/
def Fli.reset (station : Nat) : Fli :=
  { line := .off, station, score := 0, rxErrors := 0, queue := [], slot := none, nextAge := 0
    statusTimer := none, quietTimer := none, peers := Vector.replicate 32 ⟨.unheard, none⟩, busy := false }

/-- R136: UNKNOWN with kit 0 and every other field absent. -/
def HandlerEntry.reset : HandlerEntry := ⟨.unknown, none, 0, none, none, none, none⟩

/-- R145, R159: IDLE with every field clear. -/
def Need.idle : Need :=
  { state := .idle, kit := 0, cls := none, target := none, barred := false, passedOver := none
    claimSent := false, lastClass := none, seekTimer := none, windowTimer := none, dockWaitTimer := none }

/-- R159. -/
def Asu.reset : Asu :=
  { table := Vector.replicate 48 .reset, need := .idle, parked := [], idleTimer := none, staging := none }

/-- R179. -/
def Hdu.reset : Hdu := ⟨[], 0, [], []⟩

/-- R193. -/
def Rlu.reset : Rlu := ⟨[], 0⟩

/-- R206: an empty bank. -/
def FaultBank.empty : FaultBank := ⟨none, false⟩

/-- R201: CTP after a power-on reset. -/
def Ctp.reset (hold : ResetHold) : Ctp :=
  { device := .config, config := none, joinClock := 0
    floorBank := .empty, handlerBank := .empty, testerBank := .empty, accountingBank := .empty
    frameErrors := 0, waiting := [], hold, restartPending := false }

/-- R21. -/
def Lmg.reset : Lmg := ⟨Vector.replicate 8 none, 0⟩

def Lines.none : Lines := ⟨[], [], [], []⟩

/-- The device after a power-on reset, with the given reset hold, pins and line record. -/
def Device.powerOn (hold : ResetHold) (pins : Pins) (lines : Lines) : Device :=
  { ctp := .reset hold, lmg := .reset, tpt := .reset, hpt := .reset, tpm := .reset
    fli := .reset pins.straps.toNat, asu := .reset, hdu := .reset, rlu := .reset
    pins := { pins with feed := false, attn := false }, lines }

/-- The machine right after reset: the power-on reset has ended, the device rests in CONFIG (R201, R212).
The strap and READY levels are inputs (DESIGN CHOICE 0 and deasserted, log 9). -/
def State.reset : State :=
  { pending := []
    dev := .powerOn .running ⟨0, false, .high, false, false⟩ .none }

end Sys2Proof.Machine
end

