-- ==== Sys2Proof/Machine/Ops.lean ====
section
/-! DEFINITION. The named reads and writes of the device that every block uses: the lot table, the
configuration, the clock, the lines' outputs. -/

namespace Sys2Proof.Machine

/-! ## Configuration and clock -/

/-- The block read where none is held. No block is read before JOIN (R198), so it is never used in JOINED
(DESIGN CHOICE, log 20). -/
def ConfigBlock.blank : ConfigBlock :=
  { bins := Vector.replicate 15 ⟨.fail, false, 0⟩
    windowSize := 0, windowYieldLimit := 0, windowFloor := false, nMin := 0, siteDeltaLimit := 0
    siteRunLimit := 0, siteDisable := false, minSites := 0, finalYieldLimit := 0, missingLimit := 0
    rounding := .truncate, statusPeriod := 0, claimWindow := 0, dockWait := 0, idleRelease := 0
    releaseDelay := 0, loadTimeout := 0, soakTimeout := 0, kitTimeout := 0, samplePeriod := 0
    minUph := 0, jamThreshold := 0, jamLimit := 0, readyForced := false }

/-- R198: "The held block is read by every block from JOIN on." -/
def cfg (d : Device) : ConfigBlock := d.ctp.config.getD ConfigBlock.blank

/-- The device is joined and no reset is held: the lines and timers are live. -/
def live (d : Device) : Bool := d.ctp.device == .joined && d.ctp.hold == .running

/-- A time stamp: the join clock (R201). -/
def now (d : Device) : Nat := d.ctp.joinClock

def minutes (n : Nat) : Nat := n * 60000
def seconds (n : Nat) : Nat := n * 1000

/-- Own station number (R114). -/
def ownStation (d : Device) : Nat := d.fli.station

/-! ## The lot table (R1) -/

def slots : List (Fin 8) := [0, 1, 2, 3, 4, 5, 6, 7]

def lotAt (d : Device) (i : Fin 8) : Option Lot := d.lmg.lots[i]

def putLot (i : Fin 8) (l : Option Lot) (d : Device) : Device :=
  { d with lmg := { d.lmg with lots := d.lmg.lots.set i l } }

/-- Change the record in slot `i`; an empty slot stays empty. -/
def modifyLot (i : Fin 8) (f : Lot → Lot) (d : Device) : Device :=
  putLot i ((lotAt d i).map f) d

/-- The lowest slot whose lot satisfies `p`. -/
def findLot (d : Device) (p : Lot → Bool) : Option (Fin 8) :=
  slots.find? fun i => (lotAt d i).any p

/-- The lots of the table in slot order, with their slots. -/
def lotList (d : Device) : List (Fin 8 × Lot) :=
  slots.filterMap fun i => (lotAt d i).map fun l => (i, l)

/-- The lot with the open insertion (R7: at most one). -/
def openLot (d : Device) : Option (Fin 8 × Lot) := (lotList d).find? fun e => e.2.opened

/-- The staging lot (R7: at most one). -/
def stagingLot (d : Device) : Option (Fin 8 × Lot) :=
  (lotList d).find? fun e => e.2.state == .staging

def anyOpen (d : Device) : Bool := (openLot d).isSome

def slotOfId (d : Device) (id : Nat) : Option (Fin 8) := findLot d fun l => l.id == id

/-- Reference byte naming a lot: its slot, or 255 where the lot has left the table (R26). -/
def slotRef (d : Device) (id : Nat) : Nat := (slotOfId d id).elim 255 fun i => i.val

/-- Queue order (R6): lower class first, then lower admission sequence. -/
def queueBefore (a b : Lot) : Bool := a.cls < b.cls || (a.cls == b.cls && a.seq < b.seq)

/-- The first lot in queue order among those that satisfy `p`. -/
def firstInQueueOrder (d : Device) (p : Lot → Bool) : Option (Fin 8 × Lot) :=
  ((lotList d).filter fun e => p e.2).foldl
    (fun best e => match best with
      | none => some e
      | some b => if queueBefore e.2 b.2 then some e else some b) none

/-- The plan entry of the lot's current insertion (R1, R2). -/
def currentEntry (l : Lot) : PlanEntry := l.plan.getD (l.cur - 1) ⟨0, .room, 0⟩

/-- A lot's plan names the program: a floor hold on it covers the lot (R1). -/
def lotCovered (l : Lot) (program : Nat) : Bool := l.plan.any fun e => e.program == program

/-! ## Outputs of the lines (log 18) -/

def sendTester (m : TesterOut) (d : Device) : Device :=
  { d with lines := { d.lines with testerOut := d.lines.testerOut ++ [m] } }

/-- R22: LOAD, ARM, MASK and HALT are sent only while the link is UP. -/
def sendTesterIfUp (m : TesterOut) (d : Device) : Device :=
  if d.tpt.link = .up then sendTester m d else d

def sendHandler (m : HandlerOut) (d : Device) : Device :=
  { d with lines := { d.lines with handlerOut := d.lines.handlerOut ++ [m] } }

def sendFloor (m : FloorOut) (d : Device) : Device :=
  { d with lines := { d.lines with floorOut := d.lines.floorOut ++ [m] } }

def respond (r : Response) (d : Device) : Device :=
  { d with lines := { d.lines with terminalOut := d.lines.terminalOut ++ [r] } }

/-! ## The dock record (3.2) -/

/-- The handler the dock record names in PRESENT or ABSENT: "docked" for ASU (3.2). -/
def dockedHandler (d : Device) : Option Nat :=
  if d.hpt.presence = .present ∨ d.hpt.presence = .absent then d.hpt.handler else none

/-- "Soaked at class c" (R45). -/
def soakedAt (d : Device) (c : TempClass) : Bool :=
  d.hpt.presence == .present && d.hpt.soaked == some c

/-- A grade of A or B (R12). -/
def gradeAB (g : Option Grade) : Bool := g == some .a || g == some .b

/-! ## Site sets (2.4) -/

def siteList : List (Fin 8) := [0, 1, 2, 3, 4, 5, 6, 7]

/-- A set of sites as a byte: bit s is set for site s (R210). -/
def siteBits (p : Fin 8 → Bool) : BitVec 8 :=
  siteList.foldl (fun acc s => if p s then acc ||| (1#8 <<< s.val) else acc) 0#8

/-- The enabled set of the site mask (R30, R210). -/
def enabledMask (d : Device) : BitVec 8 := siteBits fun s => d.tpt.mask[s] == .enabled

def setSite (s : Fin 8) (v : SiteState) (d : Device) : Device :=
  { d with tpt := { d.tpt with mask := d.tpt.mask.set s v } }

/-- How many sites are ENABLED (R85). -/
def enabledCount (d : Device) : Nat := siteList.countP fun s => d.tpt.mask[s] == .enabled

/-! ## The arm record (2.3) -/

/-- The tester is armed for the lot's current insertion: ARMED, and the record names it. -/
def armedFor (d : Device) (l : Lot) : Bool :=
  d.tpt.arm.state == .armed && d.tpt.arm.lot == l.id && d.tpt.arm.insertion == l.cur

/-- The record names the lot's current insertion, in ARM_SENT or ARMED (R37). -/
def armNames (d : Device) (l : Lot) : Bool :=
  d.tpt.arm.state != .unarmed && d.tpt.arm.lot == l.id && d.tpt.arm.insertion == l.cur

/-- 2.3: clearing the record sets UNARMED and empties its other fields. -/
def clearArm (d : Device) : Device := { d with tpt := { d.tpt with arm := .cleared } }

/-! ## Timers -/

/-- One millisecond of a running timer (log 2). -/
def tickTimer (t : Timer) : Timer := t.map (· - 1)

end Sys2Proof.Machine
end

