-- ==== Sys2Proof/Machine/Operands.lean ====
section
/-! DEFINITION. Operand codes and ranges: what a received code names (R210), which fields are in range
(R40, R115), and the basis-point function (R80). -/

namespace Sys2Proof.Machine

/-! ## Codes (R210) -/

/-- ROOM, HOT and COLD are 1, 2 and 3. -/
def tempOfCode : Nat → Option TempClass
  | 1 => some .room
  | 2 => some .hot
  | 3 => some .cold
  | _ => none

/-- Grade A, B and C are 1, 2 and 3. -/
def gradeOfCode : Nat → Option Grade
  | 1 => some .a
  | 2 => some .b
  | 3 => some .c
  | _ => none

def binClassOfCode : Nat → Option BinClass
  | 1 => some .pass
  | 2 => some .fail
  | 3 => some .retest
  | _ => none

/-- The banks, coded by the order of 11.4. -/
def bankOfCode : Nat → Option BankName
  | 1 => some .floor
  | 2 => some .handler
  | 3 => some .tester
  | 4 => some .accounting
  | _ => none

def inRange (lo hi n : Nat) : Bool := lo ≤ n && n ≤ hi

def isHandler (h : Nat) : Bool := inRange 1 48 h
def isProgram (p : Nat) : Bool := inRange 1 4095 p

/-! ## Well-formed bulletin payloads (R115) -/

def isGrade (g : Nat) : Bool := inRange 1 3 g

def holdOk (h : HoldField) : Bool := isProgram h.program && inRange 1 255 h.tag && inRange 1 15 h.reason

def liftOk (program tag reason : Nat) : Bool := isProgram program && inRange 1 255 tag && reason == 0

def claimOk (handler kit cls : Nat) : Bool := isHandler handler && inRange 1 255 kit && cls ≤ 3

def handlerFieldOk (h : HandlerField) : Bool := isHandler h.handler && h.kit ≤ 255 && isGrade h.grade

def seekOk (kit cls : Nat) : Bool := inRange 1 255 kit && cls ≤ 3

/-- No value stands twice in the list. -/
def noRepeat : List Nat → Bool
  | [] => true
  | x :: xs => !xs.contains x && noRepeat xs

/-- R115, the STATUS row and the four further cases. -/
def statusOk (c : StatusField) : Bool :=
  inRange 1 4 c.cellState && c.queued ≤ 8 && c.handler ≤ 48 && c.kit ≤ 255 && c.grade ≤ 3 &&
  c.parked.length ≤ 4 && c.parked.all handlerFieldOk &&
  c.holds.length ≤ 8 && c.holds.all holdOk &&
  (c.handler == 0) == (c.grade == 0) &&
  noRepeat ((if c.handler = 0 then [] else [c.handler]) ++ c.parked.map (·.handler)) &&
  noRepeat (c.holds.map (·.tag))

/-! ## Touchdown operands (R34) -/

/-- R34: the cases in which a TOUCHDOWN is refused whole are those this excludes. -/
def touchdownOk (repeats entryCount : Nat) (entries : List (Nat × Nat)) : Bool :=
  inRange 1 8 entryCount && entries.length == entryCount && inRange 1 16 repeats &&
  entries.all (fun e => e.1 ≤ 7 && e.2 ≤ 15) && noRepeat (entries.map (·.1))

/-! ## The basis-point function (R80) -/

/-- bp(n, d) for d ≥ 1 in the given rounding mode, clamped at 10000. -/
def bp (mode : Rounding) (n d : Nat) : Nat :=
  min 10000 (match mode with
    | .truncate => n * 10000 / d
    | .nearest => (n * 10000 + d / 2) / d)

/-! ## Bin classes (R198) -/

/-- The setting of bin `b`; bin 0 (LOST) has none. -/
def binSetting (c : ConfigBlock) (b : Fin 16) : Option BinSetting :=
  if h : 1 ≤ b.val then some (c.bins[b.val - 1]'(by omega)) else none

/-- The class of bin `b`, none for bin 0. -/
def binClass (c : ConfigBlock) (b : Fin 16) : Option BinClass := (binSetting c b).map (·.cls)

def binList : List (Fin 16) := [0, 1, 2, 3, 4, 5, 6, 7, 8, 9, 10, 11, 12, 13, 14, 15]

def toSite (n : Nat) : Fin 8 := Fin.ofNat 8 n
def toBin (n : Nat) : Fin 16 := Fin.ofNat 16 n

end Sys2Proof.Machine
end

