-- ==== Sys2Proof/Machine/Configure.lean ====
section
/-! DEFINITION. CONFIGURE's check of the 54 fields in ascending order, the defaults, and the block they make
(R198). -/

namespace Sys2Proof.Machine

/-- What a field of the table of R198 admits, and its default. -/
structure FieldSpec where
  admits : Nat → Bool
  default : Option Nat

def ranged (lo hi : Nat) : FieldSpec := ⟨inRange lo hi, none⟩
def rangedOr (lo hi dflt : Nat) : FieldSpec := ⟨inRange lo hi, some dflt⟩

/-- A flag field (33, 37, 54): 0 clear, 1 set, as the floor-scope flag of 12.5 is coded (log 40). -/
def flagField : FieldSpec := ranged 0 1

/-- A limit in basis points without a default. -/
def bpField : FieldSpec := ranged 0 10000

/-- Fields 1 to 15: the floor-scope flag in the high byte, the class in the low byte (12.5). -/
def binField : FieldSpec := ⟨fun v => v / 256 ≤ 1 && inRange 1 3 (v % 256), none⟩

/-- Field 50: 15, 60 or 300 s. -/
def periodField : FieldSpec := ⟨fun v => v == 15 || v == 60 || v == 300, none⟩

/-- Fields 1 to 54 in order. -/
def fieldSpecs : List FieldSpec :=
  List.replicate 15 binField ++ List.replicate 15 (rangedOr 0 10000 10000) ++
  [ rangedOr 50 2000 200, bpField, flagField, ranged 20 1000, bpField, ranged 2 63, flagField, ranged 1 8 ] ++
  [ bpField, bpField, ranged 1 2, rangedOr 1 10 2, rangedOr 50 1000 200, rangedOr 1 60 20 ] ++
  [ rangedOr 1 120 30, rangedOr 0 240 30, rangedOr 10 600 120, ranged 1 60, ranged 10 120 ] ++
  [ periodField, ranged 0 65535, ranged 1 300, ranged 1 15, flagField ]

/-- The value a field stands for, or none where it fails (R198, 12.5). -/
def fieldValue (s : FieldSpec) (f : CfgField) : Option Nat :=
  if f.marker = 0 then (if s.admits f.value then some f.value else none)
  else if f.marker = 1 then s.default
  else none

def fieldValues (fields : List CfgField) : List (Option Nat) := List.zipWith fieldValue fieldSpecs fields

/-- The number of the first field that fails. -/
def firstFailing : Nat → List (Option Nat) → Option Nat
  | _, [] => none
  | n, none :: _ => some n
  | n, some _ :: vs => firstFailing (n + 1) vs

/-- Value of field `n`. -/
def val (vs : List (Option Nat)) (n : Nat) : Nat := (vs.getD (n - 1) none).getD 0

def binSettingOf (vs : List (Option Nat)) (b : Nat) : BinSetting :=
  { cls := (binClassOfCode (val vs b % 256)).getD .fail
    floor := val vs b / 256 == 1
    sbl := val vs (b + 15) }

/-- The block the fields give, defaults filled in. -/
def blockOf (vs : List (Option Nat)) : ConfigBlock :=
  let flag (n : Nat) : Bool := val vs n == 1
  { bins := Vector.ofFn fun b : Fin 15 => binSettingOf vs (b.val + 1)
    windowSize := val vs 31, windowYieldLimit := val vs 32, windowFloor := flag 33, nMin := val vs 34
    siteDeltaLimit := val vs 35, siteRunLimit := val vs 36, siteDisable := flag 37, minSites := val vs 38
    finalYieldLimit := val vs 39, missingLimit := val vs 40
    rounding := if val vs 41 = 1 then .truncate else .nearest
    statusPeriod := val vs 42, claimWindow := val vs 43, dockWait := val vs 44, idleRelease := val vs 45
    releaseDelay := val vs 46, loadTimeout := val vs 47, soakTimeout := val vs 48, kitTimeout := val vs 49
    samplePeriod := val vs 50, minUph := val vs 51, jamThreshold := val vs 52, jamLimit := val vs 53
    readyForced := flag 54 }

/-- R198: the field BAD_FIELD names, or the block. -/
def checkConfig (fields : List CfgField) : Nat ⊕ ConfigBlock :=
  let vs := fieldValues fields
  match firstFailing 1 vs with
  | some n => .inl n
  | none =>
    let c := blockOf vs
    if c.bins.toList.any (fun b => b.cls == .pass) then .inr c else .inl 1

end Sys2Proof.Machine
end

