-- ==== Sys2Proof/Machine/Flags.lean ====
section
/-! DEFINITION. Flags and levels: the fault banks (R206), ATTN (R208), the run gate FEED with effective run
(R55, R56), and the sticky flags (R75, R76). -/

namespace Sys2Proof.Machine

/-! ## Fault banks -/

def bank (d : Device) : BankName → FaultBank
  | .floor => d.ctp.floorBank
  | .handler => d.ctp.handlerBank
  | .tester => d.ctp.testerBank
  | .accounting => d.ctp.accountingBank

def setBank (n : BankName) (b : FaultBank) (d : Device) : Device :=
  match n with
  | .floor => { d with ctp := { d.ctp with floorBank := b } }
  | .handler => { d with ctp := { d.ctp with handlerBank := b } }
  | .tester => { d with ctp := { d.ctp with testerBank := b } }
  | .accounting => { d with ctp := { d.ctp with accountingBank := b } }

/-- Rising order of severities (11.4). -/
def Severity.rank : Severity → Nat
  | .note => 1
  | .corrected => 2
  | .uncorrected => 3

/-- The table of R206: how a bank takes a fault. -/
def takeFault (b : FaultBank) (f : FaultRecord) : FaultBank :=
  match b.record with
  | none => ⟨some f, false⟩
  | some r => if r.severity.rank < f.severity.rank then ⟨some f, true⟩ else ⟨some r, true⟩

/-- A block raises a fault; CTP takes it into the bank with the present time (R206). -/
def raise (n : BankName) (sev : Severity) (code : FaultCode) (reference : Nat) (d : Device) : Device :=
  setBank n (takeFault (bank d n) ⟨sev, code, reference, now d⟩) d

/-- The bank holds a record of severity UNCORRECTED (R207). -/
def bankUncorrected (b : FaultBank) : Bool := b.record.any fun r => r.severity == .uncorrected

/-- The bank holds a record of severity CORRECTED or UNCORRECTED (R208). -/
def bankSevere (b : FaultBank) : Bool := b.record.any fun r => r.severity != .note

/-! ## ATTN (R208) -/

def attnBank (d : Device) : Bool :=
  bankSevere d.ctp.floorBank || bankSevere d.ctp.handlerBank ||
  bankSevere d.ctp.testerBank || bankSevere d.ctp.accountingBank

def attnUnseen (d : Device) : Bool := (lotList d).any fun e => e.2.unseen

def attnReady (d : Device) : Bool := d.rlu.records.any fun r => r.state == .ready

/-- R208: ATTN while at least one cause holds; R212: deasserted while a power-on reset is held. -/
def attnLevel (d : Device) : Bool :=
  d.ctp.hold != .powerOn && (attnBank d || attnUnseen d || attnReady d)

/-! ## FEED and effective run (R55, R56) -/

/-- The four conditions of R55 for the lot with the open insertion. -/
def gateFor (d : Device) (l : Lot) : Bool :=
  (l.state == .running || l.state == .retest) && armedFor d l &&
  soakedAt d (currentEntry l).temp &&
  !bankUncorrected d.ctp.handlerBank && !bankUncorrected d.ctp.testerBank

/-- R55; R212: deasserted while a reset is held, R40: and in CONFIG. -/
def feedGate (d : Device) : Bool := live d && (openLot d).any fun e => gateFor d e.2

/-- Effective run as FEED, READY and the READY forced setting give it (R56). -/
def runLevel (d : Device) (feed : Bool) : Bool := feed && (d.pins.ready || (cfg d).readyForced)

/-- HPT re-evaluates FEED (R55) and effective run (R56). When effective run goes off the spoiled mark is
set, when it goes on the first-interval mark is set (R57). -/
def feedEval (d : Device) : Device :=
  let feed := feedGate d
  let run := runLevel d feed
  { d with
    pins := { d.pins with feed }
    hpt := { d.hpt with
      effRun := run
      capSpoiled := d.hpt.capSpoiled || (d.hpt.effRun && !run)
      capFirst := d.hpt.capFirst || (!d.hpt.effRun && run) } }

/-- Both output pins follow their rules (R55, R208). -/
def refreshPins (d : Device) : Device :=
  let e := feedEval d
  { e with pins := { e.pins with attn := attnLevel e } }

/-! ## Sticky flags and accounting marks -/

/-- R76: the union of two flag sets. -/
def FlagSet.union (a b : FlagSet) : FlagSet :=
  { saturated := a.saturated || b.saturated, overcount := a.overcount || b.overcount
    stray := a.stray || b.stray, late := a.late || b.late, maskDrop := a.maskDrop || b.maskDrop }

def setSaturated (l : Lot) : Lot := { l with sticky := { l.sticky with saturated := true } }
def setStray (l : Lot) : Lot := { l with sticky := { l.sticky with stray := true } }
def setMaskDrop (l : Lot) : Lot := { l with sticky := { l.sticky with maskDrop := true } }
/-- R65: the overcount mark and the OVERCOUNT flag. -/
def setOvercount (l : Lot) : Lot :=
  { l with acc := { l.acc with overcountMark := true }, sticky := { l.sticky with overcount := true } }
/-- R73: LATE enters the flags and at once the marks. -/
def setLate (l : Lot) : Lot :=
  { l with sticky := { l.sticky with late := true }, marks := { l.marks with late := true } }

end Sys2Proof.Machine
end

