-- ==== Sys2Proof/Machine/TxQueue.lean ====
section
/-! DEFINITION. The transmit queue of FLI: order, offers, replacement, eviction, return (R121, R129 to R131),
and what FLI's reports SENT, GONE and REFUSED do at HDU (R168) and ASU (R148). -/

namespace Sys2Proof.Machine

/-- Kind code of a bulletin (7.1). -/
def kindCode : Bulletin → Nat
  | .hold .. => 1
  | .lift .. => 2
  | .claim .. => 3
  | .dock .. => 4
  | .park .. => 5
  | .seek .. => 6
  | .status => 7

/-- The handler a DOCK or PARK is for. -/
def dockParkHandler : Bulletin → Option Nat
  | .dock h _ _ => some h
  | .park h _ _ => some h
  | _ => none

def isClaim (b : Bulletin) : Bool := kindCode b == 3
def isSeek (b : Bulletin) : Bool := kindCode b == 6
def isStatus (b : Bulletin) : Bool := kindCode b == 7

/-- R130: the new bulletin removes this queued one. -/
def replaces (new queued : Bulletin) : Bool :=
  match new, queued with
  | .status, .status => true
  | .seek .., .seek .. => true
  | .claim .., .claim .. => true
  | .lift _ t, .hold _ t' _ => t == t'
  | _, _ => (dockParkHandler new).isSome && dockParkHandler new == dockParkHandler queued

/-- R121: a queued bulletin supersedes the one that leaves the slot. -/
def supersedes (queued returning : Bulletin) : Bool :=
  match returning, queued with
  | .status, .status => true
  | .seek .., .seek .. => true
  | .claim .., .claim .. => true
  | .hold _ t _, .lift _ t' => t == t'
  | _, _ => (dockParkHandler returning).isSome && dockParkHandler returning == dockParkHandler queued

/-- Queue order: lower kind code first, within a kind the older first (R129). -/
def goesBefore (a b : QEntry) : Bool :=
  kindCode a.bulletin < kindCode b.bulletin ||
  (kindCode a.bulletin == kindCode b.bulletin && a.age < b.age)

def insertEntry (e : QEntry) : List QEntry → List QEntry
  | [] => [e]
  | x :: xs => if goesBefore e x then e :: x :: xs else x :: insertEntry e xs

/-- Places taken: the queue, and the slot while an attempt runs (R129). -/
def placesTaken (f : Fli) : Nat := f.queue.length + (if f.slot.isSome then 1 else 0)

/-! ## Reports -/

/-- R168: a report for a HOLD or LIFT clears its in-play mark. -/
def clearInPlay (b : Bulletin) (d : Device) : Device :=
  match b with
  | .hold _ t _ => { d with hdu := { d.hdu with holdsInPlay := d.hdu.holdsInPlay.filter (· != t) } }
  | .lift _ t => { d with hdu := { d.hdu with liftsInPlay := d.hdu.liftsInPlay.filter (· != t) } }
  | _ => d

/-- R148: an own CLAIM was dropped from a full queue or discarded in BARRED. -/
def claimLost (d : Device) : Device :=
  if d.asu.need.state = .claiming ∧ d.asu.need.claimSent = false then
    { d with asu := { d.asu with need := { d.asu.need with seekTimer := some Config.seekMs } } }
  else d

/-- GONE where the bulletin was replaced, removed by request or evicted (R129): no effect for a CLAIM. -/
def reportGone (b : Bulletin) (d : Device) : Device := clearInPlay b d

/-- GONE where the bulletin was dropped at its offer or discarded in BARRED. -/
def reportLost (b : Bulletin) (d : Device) : Device :=
  if isClaim b then claimLost d else clearInPlay b d

/-! ## Offers -/

/-- The bulletin enters the queue with the next age (R129). -/
def enqueue (b : Bulletin) (d : Device) : Device :=
  { d with fli := { d.fli with
      queue := insertEntry ⟨b, d.fli.nextAge⟩ d.fli.queue
      nextAge := d.fli.nextAge + 1 } }

/-- Remove the queued entries that satisfy `p`, each reported GONE. -/
def removeQueued (p : Bulletin → Bool) (d : Device) : Device :=
  let gone := d.fli.queue.filter fun e => p e.bulletin
  let d := { d with fli := { d.fli with queue := d.fli.queue.filter fun e => !p e.bulletin } }
  gone.foldl (fun d e => reportGone e.bulletin d) d

/-- R131, the table for a full queue without STATUS or SEEK. -/
def refuseOffer (b : Bulletin) (d : Device) : Device :=
  match b with
  | .hold _ t _ => clearInPlay b (raise .floor .uncorrected .txqRefused t d)
  | .lift _ t => clearInPlay b (raise .floor .uncorrected .txqRefused t d)
  | .claim h _ _ => claimLost (raise .floor .note .txqDropped h d)
  | .dock h _ _ => raise .floor .note .txqDropped h d
  | .park h _ _ => raise .floor .note .txqDropped h d
  | .seek .. => raise .floor .note .txqDropped 255 d
  | .status => raise .floor .note .txqDropped 255 d

/-- The line states in which the queue accepts (7.5). -/
def queueAccepts (l : LineState) : Bool := l == .listen || l == .active || l == .quiet

/-- A block offers a bulletin: BARRED discards it (R128), R130 replaces, R131 evicts, drops or refuses. -/
def offer (b : Bulletin) (d : Device) : Device :=
  if !queueAccepts d.fli.line then reportLost b d
  else if d.fli.queue.any (fun e => replaces b e.bulletin) then
    enqueue b (removeQueued (replaces b) d)
  else if placesTaken d.fli < 12 then enqueue b d
  else if d.fli.queue.any (fun e => isStatus e.bulletin) then enqueue b (removeQueued isStatus d)
  else if d.fli.queue.any (fun e => isSeek e.bulletin) then enqueue b (removeQueued isSeek d)
  else refuseOffer b d

/-- R129: ASU asks for the removal of its own CLAIM. -/
def removeClaim (d : Device) : Device :=
  let d := removeQueued isClaim d
  let slot := d.fli.slot.map fun sl => if isClaim sl.bulletin then { sl with removal := true } else sl
  { d with fli := { d.fli with slot } }

/-! ## The slot -/

/-- R121: the bulletin in the slot goes back to the queue with its age, or is discarded with GONE. -/
def returnSlot (d : Device) : Device :=
  match d.fli.slot with
  | none => d
  | some sl =>
    let d := { d with fli := { d.fli with slot := none } }
    if sl.removal || d.fli.queue.any (fun e => supersedes e.bulletin sl.bulletin) then
      reportGone sl.bulletin d
    else if d.fli.line = .barred then reportLost sl.bulletin d
    else { d with fli := { d.fli with queue := insertEntry ⟨sl.bulletin, sl.age⟩ d.fli.queue } }

/-- R128: entering BARRED stops the quiet and status timers and discards the queue, each entry GONE. -/
def enterBarred (d : Device) : Device :=
  if d.fli.line = .barred then d
  else
    let gone := d.fli.queue
    let d := { d with fli := { d.fli with line := .barred, quietTimer := none, statusTimer := none, queue := [] } }
    gone.foldl (fun d e => reportLost e.bulletin d) d

/-- R123: a good bulletin with the own number that this station did not send. -/
def duplicateHeard (d : Device) : Device :=
  enterBarred (raise .floor .uncorrected .duplicateStation (ownStation d) d)

end Sys2Proof.Machine
end

