-- ==== Sys2Proof/Machine/Dock.lean ====
section
/-! DEFINITION. The handler's dock: index capture clearing (R57), TPM's dock reports (R100), the undock order
(R44), the kit change order (R48). -/

namespace Sys2Proof.Machine

def setHpt (f : Hpt → Hpt) (d : Device) : Device := { d with hpt := f d.hpt }
def setTpm (f : Tpm → Tpm) (d : Device) : Device := { d with tpm := f d.tpm }

/-- R57: clearing sets the accumulator to 0, clears the first-interval mark and sets the spoiled mark. -/
def clearCapture (h : Hpt) : Hpt := { h with capAcc := 0, capFirst := false, capSpoiled := true }

/-- R42 to R44: the soaked class becomes NONE, a soak and a kit change in flight end, the capture is cleared. -/
def dropWork (h : Hpt) : Hpt := clearCapture { h with soaked := none, soak := none, kitChange := none }

/-! ## TPM's dock reports (R100) -/

/-- Dock and change of dock: a new period, the grade given, counts 0; the last sample becomes NONE (R110). -/
def tpmDock (handler : Nat) (g : Grade) (t : Tpm) : Tpm :=
  { t with
    sampled := some handler, period := some 0, results := 0, gateOn := 0, jams := 0
    grade := some g, degrade := 0, recover := 0, last := .empty }

/-- Undock carried out: the period is stopped and its partial sample discarded; the grade is kept. -/
def tpmUndock (t : Tpm) : Tpm :=
  { t with sampled := none, period := none, results := 0, gateOn := 0, jams := 0 }

/-- Handler gone: grade none, both counts 0. -/
def tpmGone (t : Tpm) : Tpm := { tpmUndock t with grade := none, degrade := 0, recover := 0 }

/-! ## Leaving -/

/-- R44: the presence becomes EMPTY, the dock record is emptied and the handler is reported gone. -/
def handlerGone (d : Device) : Device :=
  setTpm tpmGone (setHpt (fun h => { h with presence := .empty, handler := none, kit := 0 }) d)

/-- R44: ASU's order to undock. In EMPTY and LEAVING it is not carried out. The one leaving timer starts again where
it still runs for an earlier departing handler (log 34). -/
def undock (d : Device) : Device :=
  match d.hpt.presence with
  | .present =>
    setTpm tpmUndock (setHpt (fun h =>
      { dropWork h with presence := .leaving, leaving := some Config.leavingMs, absence := none })
      (sendHandler .undock d))
  | .absent => handlerGone (setTpm tpmUndock (setHpt dropWork (sendHandler .undock d)))
  | .empty => d
  | .leaving => d

/-! ## Kit change order -/

/-- R48: HPT takes the order when the handler is PRESENT and no kit change is in flight. -/
def kitOrderTaken (d : Device) : Bool := d.hpt.presence == .present && d.hpt.kitChange.isNone

/-- R48: KIT(K) is sent, the kit change starts, the dock record's kit is 0, a soak in flight ends. -/
def kitOrder (k : Nat) (d : Device) : Device :=
  setHpt (fun h =>
    { h with kitChange := some ⟨k, minutes (cfg d).kitTimeout⟩, kit := 0, soak := none, soaked := none })
    (sendHandler (.kit k) d)

end Sys2Proof.Machine
end

