-- ==== Sys2Proof/Machine/Assignment.lean ====
section
/-! DEFINITION. ASU: the handler table (R136), parking (R143), the need and its states (R144 to R152). -/

namespace Sys2Proof.Machine

/-! ## The handler table -/

def handlerIds : List Nat := (List.range 48).map (· + 1)

def entryAt (d : Device) (h : Nat) : HandlerEntry := d.asu.table.toList.getD (h - 1) .reset

/-- R143: a handler stays on the own parked list while its entry is FREE with parked-by the own station. -/
def pruneParked (d : Device) : Device :=
  { d with asu := { d.asu with parked := d.asu.parked.filter fun h =>
      (entryAt d h).state == .free && (entryAt d h).parkedBy == some (ownStation d) } }

/-- Set the entry of handler `h`; the own parked list follows (R143). -/
def setEntry (h : Nat) (e : HandlerEntry) (d : Device) : Device :=
  pruneParked { d with asu := { d.asu with table := d.asu.table.setIfInBounds (h - 1) e } }

/-- Change every entry; the own parked list follows. -/
def mapEntries (f : HandlerEntry → HandlerEntry) (d : Device) : Device :=
  pruneParked { d with asu := { d.asu with table := vmap f d.asu.table } }

/-- UNKNOWN, kit and grade kept (R137, R141, R158). -/
def entryUnknown (e : HandlerEntry) : HandlerEntry := ⟨.unknown, none, e.kit, e.grade, none, none, none⟩

/-- DOCKED at a station: strength, parked-by and claim timer cleared (R137, R142). -/
def entryDocked (station kit : Nat) (g : Option Grade) : HandlerEntry :=
  ⟨.docked, some station, kit, g, none, none, none⟩

/-- FREE, parked by a station (R138, R143). -/
def entryFree (station kit : Nat) (g : Option Grade) : HandlerEntry :=
  ⟨.free, none, kit, g, none, some station, none⟩

/-- R139: at the end of a claim the entry is FREE if parked-by is present, UNKNOWN otherwise. -/
def entryUnclaimed (e : HandlerEntry) : HandlerEntry :=
  if e.parkedBy.isSome then { e with state := .free, station := none, strength := none, timer := none }
  else entryUnknown e

/-- R139: the claim of class `p` at station `s` is stronger than that of class `q` at `t`. -/
def stronger (p s q t : Nat) : Bool := p < q || (p == q && s < t)

/-- R139: a CLAIM of class `p` from station `s` as an entry takes it. The own claim has no claim timer (R148). -/
def entryClaim (dockWaitMs own s p : Nat) (e : HandlerEntry) : HandlerEntry :=
  let timer : Timer := if s = own then none else some dockWaitMs
  match e.state with
  | .unknown => { e with state := .claimed, station := some s, strength := some p, timer }
  | .free => { e with state := .claimed, station := some s, strength := some p, timer }
  | .docked => e
  | .claimed =>
    if e.station = some s ∨ stronger p s (e.strength.getD 0) (e.station.getD 0) then
      { e with station := some s, strength := some p, timer }
    else e

/-- An entry CLAIMED at the own station. -/
def ownClaimed (d : Device) (h : Nat) : Bool :=
  (entryAt d h).state == .claimed && (entryAt d h).station == some (ownStation d)

/-! ## Parking (R143) -/

/-- The handler joins the end of the own parked list; past 4 the oldest leaves. -/
def joinParked (h : Nat) (d : Device) : Device :=
  let l := d.asu.parked.filter (· != h) ++ [h]
  { d with asu := { d.asu with parked := l.drop (l.length - 4) } }

/-- Offer PARK for `h`; its entry becomes FREE, parked by the own station, and it joins the own parked list. -/
def parkEntry (h kit : Nat) (g : Option Grade) (d : Device) : Device :=
  joinParked h (setEntry h (entryFree (ownStation d) kit g) (offer (.park h kit g) d))

/-- R143: parking the docked handler, with the dock record's kit and TPM's grade as they stand at the order. -/
def parkDocked (d : Device) : Device :=
  match dockedHandler d with
  | none => d
  | some h => parkEntry h d.hpt.kit d.tpm.grade (undock d)

/-- R143: releasing a WON claim on `h`, with the kit and grade of its entry. -/
def releaseWon (h : Nat) (d : Device) : Device :=
  parkEntry h (entryAt d h).kit (entryAt d h).grade d

/-! ## The need -/

def setNeed (n : Need) (d : Device) : Device := { d with asu := { d.asu with need := n } }

/-- R144: a need exists while a lot is in STAGING and no handler of its kit at grade A or B is docked. -/
def needExists (d : Device) : Bool :=
  match stagingLot d with
  | none => false
  | some (_, l) =>
    (dockedHandler d).isNone || d.hpt.kit != l.kit || d.tpm.grade == some .c

/-- R145: how the end of a need acts on its state; every field of the need is then clear. -/
def endNeed (d : Device) : Device :=
  let n := d.asu.need
  let d' := match n.state, n.target with
    | .claiming, some h =>
      let d := removeClaim d
      if ownClaimed d h then setEntry h (entryUnclaimed (entryAt d h)) d else d
    | .claiming, none => removeClaim d
    | .won, some h => releaseWon h d
    | _, _ => d
  setNeed .idle d'

/-- A candidate of R146 with the given grade. -/
def isCandidate (d : Device) (g : Grade) (h : Nat) : Bool :=
  let e := entryAt d h
  e.state == .free && e.kit == d.asu.need.kit && e.grade == some g && d.asu.need.passedOver != some h

/-- R146: one with grade A if any has it, and the lowest handler ID among those. -/
def candidate (d : Device) : Option Nat :=
  match handlerIds.find? (isCandidate d .a) with
  | some h => some h
  | none => handlerIds.find? (isCandidate d .b)

/-- ASU offers CLAIM for `h` with the need's kit and present class (R145, R149). -/
def offerClaim (h : Nat) (d : Device) : Device :=
  let n := d.asu.need
  let p := n.cls.getD 0
  offer (.claim h n.kit p) (setNeed { n with lastClass := some p } d)

/-- Offer SEEK and start the SEEK repeat timer (R147). -/
def offerSeek (d : Device) : Device :=
  let n := d.asu.need
  setNeed { n with seekTimer := some Config.seekMs } (offer (.seek n.kit (n.cls.getD 0)) d)

/-- R147 step 3: a kit change may be ordered. -/
def kitChangeOpen (d : Device) : Bool :=
  kitOrderTaken d && gradeAB d.tpm.grade && !anyOpen d && !d.asu.need.barred

/-- R147: the four steps in SEEKING; `entry` is set on entry to SEEKING. -/
def seekEval (entry : Bool) (d : Device) : Device :=
  let n := d.asu.need
  if d.hpt.kitChange.any (fun c => c.kit == n.kit) then
    setNeed { n with state := .kitChange, seekTimer := none } d
  else match candidate d with
    | some h =>
      offerClaim h (setNeed { n with state := .claiming, target := some h, claimSent := false, seekTimer := none } d)
    | none =>
      if kitChangeOpen d then
        setNeed { n with state := .kitChange, seekTimer := none } (kitOrder n.kit d)
      else if entry then offerSeek d
      else d

/-- The need goes to SEEKING: target, claim-sent mark and the window and dock wait timers are cleared
(R149, R151), and R147 is evaluated as on entry. -/
def toSeeking (d : Device) : Device :=
  seekEval true (setNeed
    { d.asu.need with
      state := .seeking, target := none, claimSent := false
      seekTimer := none, windowTimer := none, dockWaitTimer := none } d)

/-- LMG's report of a change of the staging lot, as R145 takes it: the lot in STAGING now against the one last told,
so that all changes of one operation are one report (log 39). -/
def stagingReport (d : Device) : Device :=
  let lot := stagingLot d
  let now := lot.map fun e => e.2.id
  if now = d.asu.staging then d
  else
    let before := d.asu.staging
    let d := { d with asu := { d.asu with staging := now } }
    match before, lot with
    | some _, some (_, l) =>
      if d.asu.need.state = .idle then d
      else if l.kit = d.asu.need.kit then setNeed { d.asu.need with cls := some l.cls } d
      else endNeed d
    | some _, none => endNeed d
    | none, _ => d

/-- R144: the re-evaluation of the need. A need in KIT_CHANGE moves when HPT has no kit change in flight any
more (R152); if it still exists then it goes to SEEKING (log 13). -/
def needEval (d : Device) : Device :=
  match d.asu.need.state with
  | .idle =>
    if needExists d then
      match stagingLot d with
      | some (_, l) => toSeeking (setNeed { Need.idle with kit := l.kit, cls := some l.cls } d)
      | none => d
    else d
  | .seeking => if needExists d then seekEval false d else endNeed d
  | .claiming => if needExists d then d else endNeed d
  | .won => if needExists d then d else endNeed d
  | .kitChange =>
    if d.hpt.kitChange.isSome then d
    else if needExists d then toSeeking d
    else endNeed d

/-- R150: in WON the docked handler is parked once no lot has its open-insertion mark set. -/
def wonPark (d : Device) : Device :=
  if d.asu.need.state = .won ∧ anyOpen d = false then parkDocked d else d

/-- R155: a docked handler at grade C is parked once no lot has its open-insertion mark set. -/
def gradeCPark (d : Device) : Device :=
  if d.tpm.grade = some .c ∧ anyOpen d = false then parkDocked d else d

/-- ASU takes LMG's report, re-evaluates the need and checks the two parks. -/
def asuEval (d : Device) : Device := gradeCPark (wonPark (needEval (stagingReport d)))

/-! ## Idle release (R153) -/

/-- R153: the docked handler is idle. -/
def handlerIdle (d : Device) : Bool :=
  (dockedHandler d).isSome && !anyOpen d && (stagingLot d).isNone &&
  (lotList d).all fun e => !(e.2.state == .queued && e.2.kit == d.hpt.kit)

/-- R153: the idle timer stops. -/
def stopIdle (d : Device) : Device := { d with asu := { d.asu with idleTimer := none } }

/-- R153: the idle timer starts when the docked handler becomes idle and stops when it stops being idle. -/
def idleEval (d : Device) : Device :=
  let t : Timer := if handlerIdle d then
      (match d.asu.idleTimer with
       | some r => some r
       | none => some (minutes (cfg d).idleRelease))
    else none
  { d with asu := { d.asu with idleTimer := t } }

end Sys2Proof.Machine
end

