-- ==== Sys2Proof/Machine/Staging.lean ====
section
/-! DEFINITION. The conditions the blocks check whenever they may have changed: staging selection (R7), the
load (R25), the soak (R45), readiness and insertion start (R12 to R14), the restore (R30). `settle` runs
them all, in the order LMG, ASU, TPT, HPT, LMG, TPT (log 5). -/

namespace Sys2Proof.Machine

def setTpt (f : Tpt → Tpt) (d : Device) : Device := { d with tpt := f d.tpt }

/-- The insertion step is PASS k. -/
def passOf (l : Lot) : Option Nat :=
  match l.step with
  | some (.pass k) => some k
  | _ => none

/-! ## Staging selection (R7) -/

/-- R7: with no lot open and none staging, the first QUEUED lot in queue order enters STAGING. -/
def stagingSelect (d : Device) : Device :=
  if anyOpen d || (stagingLot d).isSome then d
  else match firstInQueueOrder d (fun l => l.state == .queued) with
    | some (i, _) => modifyLot i (fun l => { l with state := .staging }) d
    | none => d

/-! ## The program load (R25) -/

/-- R25: the staging lot; else the open lot in a pass that the tester is not armed for. -/
def loadTarget (d : Device) : Option Lot :=
  match stagingLot d with
  | some (_, l) => some l
  | none => match openLot d with
    | some (_, l) => if (passOf l).isSome && !armedFor d l then some l else none
    | none => none

/-- A mark is cleared when a lot other than the one it names becomes the target (R27, R46; log 14). -/
def markAfter (mark before target : Option Nat) : Option Nat :=
  if target ≠ before ∧ target.isSome ∧ mark ≠ target then none else mark

/-- R25: LOAD is sent; loaded program none, arm record cleared. -/
def startLoad (l : Lot) (d : Device) : Device :=
  let p := (currentEntry l).program
  clearArm (setTpt (fun t =>
    { t with load := some ⟨p, l.id, seconds (cfg d).loadTimeout⟩, loaded := 0 }) (sendTester (.load p) d))

/-- R25: TPT starts a load when its five conditions hold. -/
def loadCheck (d : Device) : Device :=
  let target := loadTarget d
  let d := setTpt (fun t =>
    { t with
      loadBlocked := markAfter t.loadBlocked t.target (target.map (·.id))
      target := target.map (·.id) }) d
  match target with
  | none => d
  | some l =>
    if (currentEntry l).program ≠ d.tpt.loaded ∧ d.tpt.load = none ∧ d.tpt.link = .up ∧
        d.tpt.arm.state ≠ .sent ∧ d.tpt.loadBlocked ≠ some l.id then
      startLoad l d
    else d

/-! ## The soak (R45) -/

/-- R45: the staging lot; else the open lot in a pass. -/
def soakTarget (d : Device) : Option Lot :=
  match stagingLot d with
  | some (_, l) => some l
  | none => match openLot d with
    | some (_, l) => if (passOf l).isSome then some l else none
    | none => none

/-- R45: SETPOINT is sent; the soak records class and lot, the soaked class becomes NONE. -/
def startSoak (l : Lot) (d : Device) : Device :=
  let c := (currentEntry l).temp
  setHpt (fun h => { h with soak := some ⟨c, l.id, minutes (cfg d).soakTimeout⟩, soaked := none })
    (sendHandler (.setpoint c) d)

/-- R45: HPT sends SETPOINT when its conditions hold. -/
def soakCheck (d : Device) : Device :=
  let target := soakTarget d
  let d := setHpt (fun h =>
    { h with
      soakBlocked := markAfter h.soakBlocked h.soakTarget (target.map (·.id))
      soakTarget := target.map (·.id) }) d
  match target with
  | none => d
  | some l =>
    if d.hpt.soaked ≠ some (currentEntry l).temp ∧ d.hpt.presence = .present ∧ d.hpt.kit = l.kit ∧
        d.hpt.soakHeard = true ∧ (l.state ≠ .staging ∨ gradeAB d.tpm.grade = true) ∧
        d.hpt.soak = none ∧ d.hpt.kitChange = none ∧ d.hpt.soakBlocked ≠ some l.id then
      startSoak l d
    else d

/-! ## Arming and passes (R12, R13, R30, R51) -/

/-- R30: ARM is sent; the record takes lot, insertion, program and mask. -/
def sendArm (l : Lot) (mask : BitVec 8) (d : Device) : Device :=
  let p := (currentEntry l).program
  setTpt (fun t => { t with arm := ⟨.sent, l.id, l.cur, p, mask⟩ })
    (sendTester (.arm l.id l.cur p mask) d)

/-- R12: the first two conditions of readiness, the handler's. -/
def handlerReady (d : Device) (l : Lot) : Bool :=
  d.hpt.presence == .present && d.hpt.kit == l.kit && gradeAB d.tpm.grade &&
  soakedAt d (currentEntry l).temp

/-- R12: the other two, the tester's; R30: no ARM is outstanding. -/
def testerReady (d : Device) (l : Lot) : Bool :=
  d.tpt.loaded == (currentEntry l).program && d.tpt.load.isNone && d.tpt.link == .up &&
  d.tpt.arm.state != .sent

/-- R12: what an insertion start does to the lot record. -/
def openInsertion (l : Lot) : Lot :=
  { l with
    opened := true, step := some (.pass 0), passStarted := false, acc := .zero, sticky := .clear
    stats := .zero, fedCounts := [] }

/-- R12: the insertion start. ARM goes out with all 8 sites enabled (R30); the site mask (R32), the
arm-refused mark (R31), the last-closed record (R35), the pass record (R51) and the run-time carry (R111)
start afresh, and the silence timer starts (R24). -/
def insertionStart (i : Fin 8) (l : Lot) (d : Device) : Device :=
  let d := modifyLot i openInsertion d
  let d := setTpt (fun t =>
    { t with
      mask := Vector.replicate 8 .enabled, outstanding := [], armRefused := none, lastClosed := none
      silence := some Config.silenceMs }) d
  let d := setHpt (fun h => { h with pass := none, passHandler := none, intake := 0 }) d
  sendArm l 0xFF (setTpm (fun t => { t with carry := 0 }) d)

/-- R13: the unit count of START_PASS. -/
def unitCount (l : Lot) (k : Nat) : Nat := if k = 0 then l.qIn - l.acc.t1 else l.acc.pendingNow

/-- R51: START_PASS is sent, the pass record takes pass and handler, the intake count is 0; the lot's
pass-started mark is set (R13). -/
def startPass (i : Fin 8) (l : Lot) (k : Nat) (d : Device) : Device :=
  modifyLot i (fun l => { l with passStarted := true })
    (setHpt (fun h => { h with pass := some k, passHandler := h.handler, intake := 0 })
      (sendHandler (.startPass k (unitCount l k)) d))

/-- The state an insertion step PASS k names (R13). -/
def passState (k : Nat) : LotState := if k = 0 then .running else .retest

/-- The lot enters RUNNING or RETEST k; with the pass-started mark clear START_PASS goes out (R11, R13). -/
def enterPass (i : Fin 8) (l : Lot) (k : Nat) (d : Device) : Device :=
  let d := modifyLot i (fun l => { l with state := passState k, resume := none }) d
  if l.passStarted then d else startPass i l k d

/-- R12 to R14: LMG checks the readiness of the staging lot. -/
def readyCheck (d : Device) : Device :=
  match stagingLot d with
  | none => d
  | some (i, l) =>
    if !l.opened then
      if handlerReady d l && testerReady d l then insertionStart i l d else d
    else match passOf l with
      | none => d
      | some k =>
        if armedFor d l then
          if handlerReady d l then enterPass i l k d else d
        else if handlerReady d l && testerReady d l && d.tpt.armRefused != some l.id then
          sendArm l (enabledMask d) d
        else d

/-- R30: the restore of an open insertion whose lot is not in STAGING. -/
def restoreCheck (d : Device) : Device :=
  match openLot d with
  | none => d
  | some (_, l) =>
    if l.state ≠ .staging ∧ (passOf l).isSome = true ∧ armedFor d l = false ∧ testerReady d l = true ∧
        d.tpt.armRefused ≠ some l.id then
      sendArm l (enabledMask d) d
    else d

/-! ## QUERY intervals (R23, R41; log 22) -/

/-- A timer that runs while `on` holds and starts at `ms`. -/
def keepRunning (on : Bool) (ms : Nat) (t : Timer) : Timer :=
  if on then (match t with
    | some r => some r
    | none => some ms)
  else none

def queryEval (d : Device) : Device :=
  let d := setTpt (fun t =>
    { t with query := keepRunning (d.tpt.link != .up || anyOpen d) Config.queryMs t.query }) d
  setHpt (fun h => { h with query := keepRunning (h.presence == .absent) Config.queryMs h.query }) d

/-! ## Settling -/

/-- One round of the checks. -/
def settleOnce (d : Device) : Device :=
  queryEval (idleEval (feedEval (restoreCheck (readyCheck (soakCheck (loadCheck
    (asuEval (stagingSelect d))))))))

/-- The checks of R7, R12, R25, R30, R45, R55, R144 and R153 after an event at the device. Three rounds: a
later check of a round can change what an earlier one reads (log 5). With a reset held or in CONFIG the
blocks check nothing. -/
def settle (d : Device) : Device :=
  if live d then settleOnce (settleOnce (settleOnce d)) else d

end Sys2Proof.Machine
end

