-- ==== Sys2Proof/Machine/Holds.lean ====
section
/-! DEFINITION. Hold entries and sets (R160, R161), the lot's way into HELD (R9), the recall of release
records (R186, R187), and adding to the floor-hold table (R167 to R170, R173). -/

namespace Sys2Proof.Machine

/-! ## Hold sets (R160, R161) -/

/-- What a request for an entry comes to (R161, R162). -/
inductive HoldOutcome where
  | stored
  | repeated
  | overflow
  deriving DecidableEq, Repr

def holdOutcome (l : Lot) (key : HoldKey) : HoldOutcome :=
  if l.holds.any (fun e => e.key == key) then .repeated
  else if l.holds.length < 6 then .stored
  else .overflow

def isRemote : HoldKey → Bool
  | .remote .. => true
  | _ => false

/-- R161: a request that finds its key in the set. -/
def repeatEntry (key : HoldKey) (untracked : Bool) (e : HoldEntry) : HoldEntry :=
  if e.key = key then
    if isRemote key then { e with untracked := e.untracked && untracked }
    else { e with repeats := satAdd 255 e.repeats 1 }
  else e

/-- R161: the lot record after a request for `key` at time `t`. -/
def applyHold (t : Nat) (key : HoldKey) (untracked : Bool) (l : Lot) : Lot :=
  match holdOutcome l key with
  | .repeated => { l with holds := l.holds.map (repeatEntry key untracked) }
  | .stored =>
    { l with
      holds := l.holds ++ [⟨key, l.cur, t, 1, untracked && isRemote key⟩]
      holdCount := satAdd 255 l.holdCount 1 }
  | .overflow => { l with overflow := true }

/-- R161 without the report to LMG: the entry is stored, repeated, or overflows with its fault. -/
def storeHold (i : Fin 8) (key : HoldKey) (untracked : Bool) (d : Device) : Device :=
  match lotAt d i with
  | none => d
  | some l =>
    let d' := putLot i (some (applyHold (now d) key untracked l)) d
    if holdOutcome l key = .overflow then raise .accounting .corrected .holdSetFull i.val d' else d'

/-- R9: the condition of being HELD. -/
def holdsLot (l : Lot) : Bool := !l.holds.isEmpty || l.overflow

/-- R9: the resume step recorded on entering HELD. -/
def resumeFor (l : Lot) : ResumeStep :=
  match l.state with
  | .queued => .queued
  | .staging => if l.opened then .staging else .queued
  | .running => .running
  | .retest => .retest ((passOf l).getD 0)
  | .closing => .closing
  | .review => .review
  | .held => l.resume.getD .queued

/-- R9: the lot moves to HELD with its resume step and its unseen mark set. -/
def heldLot (l : Lot) : Lot := { l with state := .held, resume := some (resumeFor l), unseen := true }

/-- R9: HDU's report that a lot's set is non-empty or its overflow mark set. -/
def enterHeld (i : Fin 8) (d : Device) : Device :=
  match lotAt d i with
  | none => d
  | some l =>
    if l.state ≠ .held ∧ holdsLot l = true then settle (putLot i (some (heldLot l)) d) else d

/-- R161: a request for an entry, complete with its report to LMG. -/
def holdRequest (i : Fin 8) (key : HoldKey) (untracked : Bool) (d : Device) : Device :=
  enterHeld i (storeHold i key untracked d)

/-! ## Recall of release records (R186, R187) -/

def setRecords (rs : List Release) (d : Device) : Device := { d with rlu := { d.rlu with records := rs } }

/-- R186: a new covering entry recalls a DELAYED or READY record; a RECALLED one keeps its cause. -/
def recallBy (o t program : Nat) (r : Release) : Release :=
  if r.programs.contains program ∧ r.state ≠ .recalled then
    { r with state := .recalled, timer := none, cause := some (.entry o t) }
  else r

/-- R187: an untracked cover recalls with cause UNTRACKED, whatever the cause before. -/
def recallUntracked (program : Nat) (r : Release) : Release :=
  if r.programs.contains program then
    { r with state := .recalled, timer := none, cause := some .untracked }
  else r

/-! ## The floor-hold table -/

def setHdu (f : Hdu → Hdu) (d : Device) : Device := { d with hdu := f d.hdu }

/-- The entry with the key (origin, tag) (R167). -/
def floorEntry (d : Device) (o t : Nat) : Option FloorHold :=
  d.hdu.table.find? fun e => e.origin == o && e.tag == t

/-- The own entry for a program (R170, R172). -/
def ownEntryFor (d : Device) (program : Nat) : Option FloorHold :=
  d.hdu.table.find? fun e => e.origin == ownStation d && e.program == program

/-- R168: a tag is in use while an own entry carries it or a HOLD or LIFT for it is in play. -/
def tagInUse (d : Device) (t : Nat) : Bool :=
  d.hdu.table.any (fun e => e.origin == ownStation d && e.tag == t) ||
  d.hdu.holdsInPlay.contains t || d.hdu.liftsInPlay.contains t

/-- The tag after `t`, 255 being followed by 1. -/
def tagAfter (t : Nat) : Nat := if t ≥ 255 then 1 else t + 1

/-- R168: the first tag from `t` on that is not in use, within `fuel` tries. -/
def freeTag (d : Device) : Nat → Nat → Nat
  | 0, t => t
  | fuel + 1, t => if tagInUse d t then freeTag d fuel (tagAfter t) else t

/-- R168: the next free tag. -/
def nextTag (d : Device) : Nat := freeTag d 255 (tagAfter d.hdu.ownTag)

/-- R168: HDU marks the tag in play and offers the bulletin. -/
def offerHold (program t reason : Nat) (d : Device) : Device :=
  offer (.hold program t reason) (setHdu (fun h => { h with holdsInPlay := h.holdsInPlay ++ [t] }) d)

def offerLift (program t : Nat) (d : Device) : Device :=
  offer (.lift program t) (setHdu (fun h => { h with liftsInPlay := h.liftsInPlay ++ [t] }) d)

/-- A request for REMOTE (o, t) on each lot covered by the program, in ascending slot order (R169, R173). -/
def requestRemotes (program o t : Nat) (untracked : Bool) (d : Device) : Device :=
  slots.foldl (fun d i =>
    if (lotAt d i).any (fun l => lotCovered l program) then holdRequest i (.remote o t) untracked d else d) d

/-- R169: a new entry is applied to the lots, then reported to RLU. -/
def applyFloorHold (e : FloorHold) (d : Device) : Device :=
  let d := requestRemotes e.program e.origin e.tag false d
  setRecords (d.rlu.records.map (recallBy e.origin e.tag e.program)) d

def addFloorEntry (e : FloorHold) (d : Device) : Device :=
  setHdu (fun h => { h with table := h.table ++ [e] }) d

/-- The own entry a new tag makes: the counter takes the tag, the entry is added, HOLD is offered
(R170, R172). -/
def originate (program reason : Nat) (d : Device) : Device :=
  let t := nextTag d
  offerHold program t reason
    (addFloorEntry ⟨program, ownStation d, t, reason, false⟩
      (setHdu (fun h => { h with ownTag := t }) d))

/-- R170: a floor-scope WINDOW or BIN request on the lot in slot `i`. `key` gives the lot's own entry for a
tag, `code` is the reason code. -/
def floorRequest (i : Fin 8) (key : Option Nat → HoldKey) (code : Nat) (d : Device) : Device :=
  match lotAt d i with
  | none => d
  | some l =>
    let program := (currentEntry l).program
    match ownEntryFor d program with
    | some e => holdRequest i (key (some e.tag)) false d
    | none =>
      if d.hdu.table.length < 8 then
        let t := nextTag d
        let e : FloorHold := ⟨program, ownStation d, t, code, false⟩
        applyFloorHold e (holdRequest i (key (some t)) false (originate program code d))
      else
        raise .floor .corrected .floorTableFull (ownStation d) (holdRequest i (key none) false d)

end Sys2Proof.Machine
end

