-- ==== Sys2Proof/Machine/Results.lean ====
section
/-! DEFINITION. Taking results: RAU's counting (R62 to R67, R73, R74), STU's site runs, windows and close
checks (R83 to R96), the site mask (R32), TPM's result count (R103), and the close computation (R69, R70). -/

namespace Sys2Proof.Machine

/-! ## Site disable (R32) -/

/-- A DISABLING site not yet covered by an outstanding entry or by the last ARM's mask (R32). -/
def uncoveredSites (d : Device) : BitVec 8 :=
  siteBits fun s => d.tpt.mask[s] == .disabling &&
    !d.tpt.outstanding.any (fun e => e.getLsbD s.val) && d.tpt.arm.mask.getLsbD s.val

/-- R32: MASK goes out with the enabled set, and the list gains the sites it takes out. -/
def sendMask (d : Device) : Device :=
  setTpt (fun t => { t with outstanding := t.outstanding ++ [uncoveredSites d] })
    (sendTester (.mask (enabledMask d)) d)

/-- R32: STU disables site `s`; MASK goes out while the tester is ARMED and the link UP. -/
def disableSite (s : Fin 8) (d : Device) : Device :=
  let d := setSite s .disabling d
  if d.tpt.arm.state = .armed ∧ d.tpt.link = .up then sendMask d else d

/-! ## STU: per-site counters and site runs (R84 to R86) -/

def modifyStats (i : Fin 8) (f : Stats → Stats) (d : Device) : Device :=
  modifyLot i (fun l => { l with stats := f l.stats }) d

/-- R84. -/
def countSite (s : Fin 8) (isPass : Bool) (t : Stats) : Stats :=
  if isPass then
    { t with
      siteTested := t.siteTested.set s (t.siteTested[s] + 1)
      sitePass := t.sitePass.set s (t.sitePass[s] + 1)
      run := t.run.set s 0 }
  else
    { t with
      siteTested := t.siteTested.set s (t.siteTested[s] + 1)
      run := t.run.set s (t.run[s] + 1) }

def clearRun (i : Fin 8) (s : Fin 8) (d : Device) : Device :=
  modifyStats i (fun t => { t with run := t.run.set s 0 }) d

/-- R85, R86: the site run check after a non-PASS result at site `s`. -/
def siteRunCheck (i : Fin 8) (s : Fin 8) (d : Device) : Device :=
  match lotAt d i with
  | none => d
  | some l =>
    if l.stats.run[s] < (cfg d).siteRunLimit then d
    else match d.tpt.mask[s] with
      | .enabled =>
        if (cfg d).siteDisable ∧ (cfg d).minSites ≤ enabledCount d - 1 then
          clearRun i s (raise .tester .note .siteDisabled i.val (disableSite s d))
        else clearRun i s (holdRequest i (.siteRun s.val) false d)
      | .disabling => clearRun i s d
      | .disabled => d

/-! ## STU: windows (R87 to R92) -/

/-- R82: the tested count of the insertion. -/
def testedCount (a : Accum) : Nat := a.t1 - a.first[0]

/-- R89: the window yield check; the result says whether WIN_LOW is set. -/
def windowYieldLow (c : ConfigBlock) (t : Stats) : Bool :=
  bp c.rounding t.winPass t.winResults < c.windowYieldLimit

def windowYieldCheck (i : Fin 8) (low : Bool) (d : Device) : Device :=
  if low then
    if (cfg d).windowFloor then floorRequest i HoldKey.window 1 d
    else holdRequest i (.window none) false d
  else d

/-- R90: bin `b` is examined and its share exceeds its SBL limit. -/
def binHigh (c : ConfigBlock) (a : Accum) (b : Fin 16) : Bool :=
  match binSetting c b with
  | none => false
  | some s => c.nMin ≤ testedCount a && s.cls != .pass && bp c.rounding a.first[b] (testedCount a) > s.sbl

def binFloor (c : ConfigBlock) (b : Fin 16) : Bool := (binSetting c b).any (·.floor)

/-- R90: the bins whose share is high, in ascending order. -/
def highBins (c : ConfigBlock) (a : Accum) : List (Fin 16) := binList.filter (binHigh c a)

/-- R90: one BIN request, of floor scope where the bin's flag is set. -/
def binRequest (i : Fin 8) (b : Fin 16) (d : Device) : Device :=
  if binFloor (cfg d) b then floorRequest i (HoldKey.bin b.val) 2 d
  else holdRequest i (.bin b.val none) false d

/-- R91: the qualifying sites with their yields, in ascending order. -/
def siteYields (d : Device) (t : Stats) : List (Fin 8 × Nat) :=
  (siteList.filter fun s => d.tpt.mask[s] == .enabled && (cfg d).nMin ≤ t.siteTested[s]).map
    fun s => (s, bp (cfg d).rounding t.sitePass[s] t.siteTested[s])

/-- The lowest-numbered site among those of lowest yield. -/
def lowestSite : List (Fin 8 × Nat) → Option (Fin 8 × Nat)
  | [] => none
  | x :: xs => match lowestSite xs with
    | none => some x
    | some y => if y.2 < x.2 then some y else some x

def highestYield (ys : List (Fin 8 × Nat)) : Nat := ys.foldl (fun m y => max m y.2) 0

/-- R91: the site named by a SITE_DELTA request, where the delta exceeds its limit. -/
def deltaSite (d : Device) (t : Stats) : Option (Fin 8) :=
  let ys := siteYields d t
  match lowestSite ys with
  | none => none
  | some low =>
    if 2 ≤ ys.length ∧ highestYield ys - low.2 > (cfg d).siteDeltaLimit then some low.1 else none

def deltaCheck (i : Fin 8) (site : Option (Fin 8)) (d : Device) : Device :=
  match site with
  | some s => holdRequest i (.siteDelta s.val) false d
  | none => d

/-- R88: a window close, the steps in order. The counts are those that include the filling result. -/
def windowClose (i : Fin 8) (d : Device) : Device :=
  match lotAt d i with
  | none => d
  | some l =>
    let t := l.stats
    let value : WindowValue := ⟨t.winResults, t.winPass, bp (cfg d).rounding t.winPass t.winResults⟩
    let low := windowYieldLow (cfg d) t
    let bins := highBins (cfg d) l.acc
    let d := modifyStats i (fun t => { t with holdValue := some value }) d
    let d := windowYieldCheck i low d
    let d := bins.foldl (fun d b => binRequest i b d) d
    let site := deltaSite d t
    let d := deltaCheck i site d
    modifyStats i (fun t =>
      { t with winLow := low, binHigh := !bins.isEmpty, deltaHigh := site.isSome, winResults := 0, winPass := 0 }) d

/-- R87: the window counters, and the close at the result that fills the window. -/
def countWindow (i : Fin 8) (isPass : Bool) (d : Device) : Device :=
  let d := modifyStats i (fun t =>
    { t with winResults := t.winResults + 1, winPass := t.winPass + (if isPass then 1 else 0) }) d
  match lotAt d i with
  | none => d
  | some l => if (cfg d).windowSize ≤ l.stats.winResults then windowClose i d else d

/-- R83: STU takes a counted result. -/
def stuResult (i : Fin 8) (s : Fin 8) (b : Fin 16) (d : Device) : Device :=
  match lotAt d i with
  | none => d
  | some l =>
    if l.acc.countingPass ≠ 0 ∨ b = 0 then d
    else
      let isPass := binClass (cfg d) b == some .pass
      let d := modifyStats i (countSite s isPass) d
      let d := if isPass then d else siteRunCheck i s d
      countWindow i isPass d

/-! ## RAU (R62 to R67) -/

def addTo (v : Vector Nat 16) (b : Fin 16) : Vector Nat 16 := v.set b (v[b] + 1)

/-- R63, R66: a unit of bin `b` in pass `k` waits for the next pass. -/
def goesToRetest (c : ConfigBlock) (l : Lot) (k : Nat) (b : Fin 16) : Bool :=
  binClass c b == some .retest && k < (currentEntry l).retests

/-- R63, R66: the unit is placed in FINAL[b] or pending_next. -/
def placeUnit (c : ConfigBlock) (l : Lot) (k : Nat) (b : Fin 16) (a : Accum) : Accum :=
  if goesToRetest c l k b then { a with pendingNext := a.pendingNext + 1 }
  else { a with final := addTo a.final b }

/-- R63: a counted first-pass result. -/
def firstPassAcc (c : ConfigBlock) (l : Lot) (b : Fin 16) (a : Accum) : Accum :=
  placeUnit c l 0 b { a with first := addTo a.first b, t1 := a.t1 + 1 }

/-- R66: a counted retest result. -/
def retestAcc (c : ConfigBlock) (l : Lot) (b : Fin 16) (a : Accum) : Accum :=
  placeUnit c l a.countingPass b { a with pendingNow := a.pendingNow - 1 }

/-- R103: RAU adds 1 to the result count of the current sample. -/
def tpmCount (d : Device) : Device :=
  if d.tpm.period.isSome then setTpm (fun t => { t with results := satAdd Config.countTop t.results 1 }) d else d

/-- R65: the overcount check after a counted first-pass result. The fault is raised before the COUNT request, as
R65 lists them; R62 names the request first (log 35). -/
def overcountCheck (i : Fin 8) (d : Device) : Device :=
  match lotAt d i with
  | none => d
  | some l =>
    if l.qIn < l.acc.t1 ∧ l.acc.overcountMark = false then
      holdRequest i .count false
        (raise .accounting .corrected .overcount i.val (modifyLot i setOvercount d))
    else d

/-- R62: RAU takes a result (s, b) for the lot with the open insertion, in slot `i`. -/
def rauResult (i : Fin 8) (s : Fin 8) (b : Fin 16) (d : Device) : Device :=
  match lotAt d i with
  | none => d
  | some l =>
    if l.acc.countingPass = 0 then
      if Config.countTop ≤ l.acc.t1 then
        raise .accounting .uncorrected .saturated i.val (modifyLot i setSaturated d)
      else
        let d := modifyLot i (fun l => { l with acc := firstPassAcc (cfg d) l b l.acc }) d
        tpmCount (stuResult i s b (overcountCheck i d))
    else if l.acc.pendingNow = 0 then
      raise .accounting .note .stray i.val (modifyLot i setStray d)
    else
      let d := modifyLot i (fun l => { l with acc := retestAcc (cfg d) l b l.acc }) d
      tpmCount (stuResult i s b d)

/-- R52: the pass intake count of a result handed over for the open insertion, then RAU's step. -/
def openResult (i : Fin 8) (s : Fin 8) (b : Fin 16) (d : Device) : Device :=
  rauResult i s b (setHpt (fun h => { h with intake := satAdd Config.countTop h.intake 1 }) d)

/-- R73: a result for a lot whose insertion has closed. -/
def lateResult (i : Fin 8) (d : Device) : Device :=
  raise .accounting .note .late i.val (modifyLot i setLate d)

/-- R36: one result of a TOUCHDOWN for the open insertion. -/
def touchResult (i : Fin 8) (s : Fin 8) (b : Fin 16) (d : Device) : Device :=
  match d.tpt.mask[s] with
  | .disabled => modifyLot i setMaskDrop d
  | .enabled => openResult i s b d
  | .disabling => openResult i s b d

/-- R35: the slot of the lot the last-closed record names, while the lot is in the table. -/
def lastClosedSlot (d : Device) : Option (Fin 8) := d.tpt.lastClosed.bind (slotOfId d)

/-- The results of a TOUCHDOWN in the order of R36. -/
def expandTouchdown (repeats : Nat) (entries : List (Nat × Nat)) : List (Fin 8 × Fin 16) :=
  (List.replicate repeats (entries.map fun e => (toSite e.1, toBin e.2))).flatten

/-! ## The close computation (R69, R70) -/

/-- The sum of FINAL over the bins satisfying `p`. -/
def finalSum (a : Accum) (p : Fin 16 → Bool) : Nat :=
  binList.foldl (fun n b => if p b then n + a.final[b] else n) 0

/-- R69 step 1: what is still owed becomes unretested. -/
def settleAcc (a : Accum) : Accum :=
  { a with unretested := a.unretested + a.pendingNow + a.pendingNext, pendingNow := 0, pendingNext := 0 }

def closeGood (c : ConfigBlock) (a : Accum) : Nat := finalSum a fun b => binClass c b == some .pass

def closeReject (c : ConfigBlock) (a : Accum) : Nat :=
  finalSum a fun b => binClass c b == some .fail || binClass c b == some .retest

/-- R70: Q_in − T1 where T1 is below, otherwise 0. -/
def closeShortfall (qIn : Nat) (a : Accum) : Nat := qIn - a.t1

def closeExcess (qIn : Nat) (a : Accum) : Nat := a.t1 - qIn

def closeMissing (qIn : Nat) (a : Accum) : Nat := a.final[0] + a.unretested + closeShortfall qIn a

/-- R69: the close computation on the lot record at time `t`. Final yield and missing share are STU's
(R96), written with the quantities they are computed from. -/
def closeLot (c : ConfigBlock) (t : Nat) (l : Lot) : Lot :=
  let a := settleAcc l.acc
  let good := closeGood c a
  let missing := closeMissing l.qIn a
  { l with
    acc := a
    marks := l.marks.union l.sticky
    summary := some
      { insertion := l.cur, qIn := l.qIn, t1 := a.t1, good, reject := closeReject c a, missing
        excess := closeExcess l.qIn a, closeTime := t
        finalYield := bp c.rounding good l.qIn, missingShare := bp c.rounding missing l.qIn } }

/-- R95: the partial window of an insertion close. -/
def partialWindow (i : Fin 8) (d : Device) : Device :=
  match lotAt d i with
  | none => d
  | some l =>
    if (cfg d).windowSize / 2 ≤ l.stats.winResults then windowClose i d
    else modifyStats i (fun t => { t with winResults := 0, winPass := 0 }) d

/-- R96: one FINAL request for each check that fails, the final yield first. -/
def finalChecks (i : Fin 8) (d : Device) : Device :=
  match (lotAt d i).bind (·.summary) with
  | none => d
  | some m =>
    let d := if m.finalYield < (cfg d).finalYieldLimit then holdRequest i .final false d else d
    if m.missingShare > (cfg d).missingLimit then holdRequest i .final false d else d

end Sys2Proof.Machine
end

