-- ==== Sys2Proof/Machine/Shipping.lean ====
section
/-! DEFINITION. RLU: the release record, its number, creation from a lot in REVIEW, the wait for a place, and
the return of recalled records (chapter 10). -/

namespace Sys2Proof.Machine

/-! ## Cover (R181) -/

/-- The first floor-hold table entry, in table order, that covers one of the programs. -/
def firstCover (d : Device) (programs : List Nat) : Option FloorHold :=
  d.hdu.table.find? fun e => programs.contains e.program

/-! ## Release numbers (R182) -/

/-- The number after `n`, 65,535 being followed by 1. -/
def numberAfter (n : Nat) : Nat := if n ≥ 65535 then 1 else n + 1

def numberHeld (d : Device) (n : Nat) : Bool := d.rlu.records.any fun r => r.number == n

/-- The first number from `n` on that no record holds, within `fuel` tries. -/
def freeNumber (d : Device) : Nat → Nat → Nat
  | 0, n => n
  | fuel + 1, n => if numberHeld d n then freeNumber d fuel (numberAfter n) else n

/-- R182: the number a new record takes. -/
def nextNumber (d : Device) : Nat := freeNumber d 7 (numberAfter d.rlu.counter)

/-! ## Entering DELAYED (R183, R185) -/

/-- The record enters DELAYED with the full release delay; a delay of 0 expires at once. -/
def startDelay (c : ConfigBlock) (r : Release) : Release :=
  if c.releaseDelay = 0 then { r with state := .ready, timer := none, cause := none }
  else { r with state := .delayed, timer := some (minutes c.releaseDelay), cause := none }

/-- R183 step 3, R188: DELAYED with no cover, otherwise RECALLED with the first covering entry as cause. -/
def placeRecord (c : ConfigBlock) (cover : Option FloorHold) (r : Release) : Release :=
  match cover with
  | none => startDelay c r
  | some e => { r with state := .recalled, timer := none, cause := some (.entry e.origin e.tag) }

/-! ## Creation (R183) -/

/-- The close summary a record copies. A lot in REVIEW has closed an insertion, so it has one; where there is
none the quantities are those of an insertion without a result, all of it missing (R70). -/
def lastClose (l : Lot) : CloseSummary := l.summary.getD ⟨0, l.qIn, 0, 0, 0, l.qIn, 0, 0, 0, 0⟩

/-- R181: the fields a record copies from the lot record; its quantities are those of the last close. -/
def recordOf (number : Nat) (l : Lot) : Release :=
  let m := lastClose l
  { number, lotId := l.id, product := l.product, kit := l.kit, programs := l.plan.map (·.program)
    completed := l.completed, qFirst := l.qFirst, qLast := m.qIn
    good := m.good, reject := m.reject, missing := m.missing, excess := m.excess
    attrition := (l.qFirst : Int) - (m.qIn : Int), finalYield := m.finalYield
    runTime := l.runTime, holdCount := l.holdCount, marks := l.marks
    state := .delayed, timer := none, cause := none }

/-- R183: the record of the lot in slot `i` is created and the slot is emptied. -/
def createRelease (i : Fin 8) (l : Lot) (d : Device) : Device :=
  let r := placeRecord (cfg d) (firstCover d (l.plan.map (·.program))) (recordOf (nextNumber d) l)
  putLot i none { d with rlu := { records := d.rlu.records ++ [r], counter := nextNumber d } }

/-- R184: RELEASE_QUEUE_FULL is raised once for a lot. -/
def noteQueueFull (i : Fin 8) (l : Lot) (d : Device) : Device :=
  if l.releaseWaitNoted then d
  else raise .accounting .note .releaseQueueFull i.val
    (putLot i (some { l with releaseWaitNoted := true }) d)

/-- R17: a lot in REVIEW is offered to RLU. -/
def offerReview (i : Fin 8) (d : Device) : Device :=
  match lotAt d i with
  | none => d
  | some l =>
    if d.rlu.records.length < 6 then createRelease i l d else noteQueueFull i l d

/-- R184: a place has become empty; the first lot in REVIEW in queue order takes it. -/
def takeWaiting (d : Device) : Device :=
  match firstInQueueOrder d (fun l => l.state == .review) with
  | none => d
  | some (i, l) => if d.rlu.records.length < 6 then createRelease i l d else d

/-- Insert a lot in queue order (R6). -/
def insertInQueueOrder (e : Fin 8 × Lot) : List (Fin 8 × Lot) → List (Fin 8 × Lot)
  | [] => [e]
  | x :: xs => if queueBefore e.2 x.2 then e :: x :: xs else x :: insertInQueueOrder e xs

/-- The lots in REVIEW, in queue order. -/
def reviewLots (d : Device) : List (Fin 8 × Lot) :=
  ((lotList d).filter fun e => e.2.state == .review).foldr insertInQueueOrder []

/-- R192: at the end of a warm reset each lot in REVIEW is offered, in queue order. -/
def offerAllReview (d : Device) : Device := (reviewLots d).foldl (fun d e => offerReview e.1 d) d

/-! ## Return (R188, R190) -/

/-- R188: the removal of entry (o, t) returns or re-attributes a record that it recalled. -/
def returnRecord (d : Device) (o t : Nat) (r : Release) : Release :=
  if r.state = .recalled ∧ r.cause = some (.entry o t) then
    placeRecord (cfg d) (firstCover d r.programs) r
  else r

/-- R188: RLU takes the report of the removal of (o, t), after the entry has left the table. -/
def returnRecords (o t : Nat) (d : Device) : Device :=
  setRecords (d.rlu.records.map (returnRecord d o t)) d

/-- The record with the number. -/
def recordNumbered (d : Device) (n : Nat) : Option Release :=
  d.rlu.records.find? fun r => r.number == n

/-- A record leaves the queue and a waiting lot takes the place (R184). -/
def removeRecord (n : Nat) (d : Device) : Device :=
  takeWaiting (setRecords (d.rlu.records.filter fun r => r.number != n) d)

/-- Change the record with the number. -/
def modifyRecord (n : Nat) (f : Release → Release) (d : Device) : Device :=
  setRecords (d.rlu.records.map fun r => if r.number = n then f r else r) d

end Sys2Proof.Machine
end

