-- ==== Sys2Proof/Machine/Lifecycle.lean ====
section
/-! DEFINITION. LMG's moves of a lot: entering QUEUED with hot preemption (R8), the close (R16), the close
drain (R37), re-staging (R14), continuing from HELD (R11), scrap (R19), the pass end (R15), and what removes a
floor hold from the lots (R174, R177). -/

namespace Sys2Proof.Machine

/-! ## Entering QUEUED (R6, R8) -/

/-- R8: the staging lot, of class 1 to 3 and not open, returns to QUEUED. -/
def preempt (d : Device) : Device :=
  match stagingLot d with
  | none => d
  | some (i, l) =>
    if 1 ≤ l.cls ∧ l.opened = false then modifyLot i (fun l => { l with state := .queued }) d else d

/-- The lot enters QUEUED; a class-0 lot preempts (R8); staging selection runs (R7). -/
def enterQueued (i : Fin 8) (d : Device) : Device :=
  let d := modifyLot i (fun l => { l with state := .queued, resume := none }) d
  settle (if (lotAt d i).any (fun l => l.cls == 0) then preempt d else d)

/-- The lot enters REVIEW and is offered to RLU (R17). -/
def enterReview (i : Fin 8) (d : Device) : Device :=
  offerReview i (modifyLot i (fun l => { l with state := .review, resume := none }) d)

/-! ## The close (R16, R37, R69) -/

/-- R71: the good count RAU reports, clamped at 500,000. -/
def reportedGood (l : Lot) : Nat := min 500000 (l.summary.elim 0 (·.good))

/-- R16: more plan entries remain and good is above 0. -/
def goesOn (l : Lot) : Bool := 0 < reportedGood l && l.cur < l.plan.length

/-- R16: the successor as a resume step. -/
def successor (l : Lot) : ResumeStep := if goesOn l then .queued else .review

/-- R16: what close completion does to the lot record, the state apart. -/
def completeLot (l : Lot) : Lot :=
  let c := { l with opened := false, closeOnContinue := false, completed := l.completed + 1, step := none }
  if goesOn l then { c with cur := l.cur + 1, qIn := reportedGood l, passStarted := false } else c

/-- R16: the lot goes to HELD with the successor as its resume step, or enters the successor. -/
def enterSuccessor (i : Fin 8) (s : ResumeStep) (d : Device) : Device :=
  match lotAt d i with
  | none => d
  | some l =>
    if holdsLot l then
      putLot i (some { l with
        state := .held, resume := some s, unseen := l.unseen || l.state != .held }) d
    else if s = .queued then enterQueued i d
    else enterReview i d

/-- R24: the silence timer stops when no insertion is open. -/
def stopSilence (d : Device) : Device := setTpt (fun t => { t with silence := none }) d

/-- R16: RAU reports the close complete to LMG. -/
def closeComplete (i : Fin 8) (d : Device) : Device :=
  match lotAt d i with
  | none => d
  | some l =>
    settle (enterSuccessor i (successor l) (stopSilence (putLot i (some (completeLot l)) d)))

/-- R16: RAU's close computation, STU's close checks, the report to LMG; R37: the last-closed record. -/
def closeInsertion (i : Fin 8) (d : Device) : Device :=
  match lotAt d i with
  | none => d
  | some l =>
    let d := modifyLot i (closeLot (cfg d) (now d)) d
    let d := finalChecks i (partialWindow i d)
    closeComplete i (setTpt (fun t => { t with lastClosed := some l.id }) d)

/-- R37: the end of the drain: arm record cleared, drain timer stopped, the open insertion closes. -/
def endDrain (d : Device) : Device :=
  let d := setTpt (fun t => { t with drain := none }) (clearArm d)
  match openLot d with
  | none => d
  | some (i, _) => closeInsertion i d

/-- R37: HALT and the 5 s drain while the tester is up and armed for the insertion, or an end at once. -/
def startDrain (l : Lot) (d : Device) : Device :=
  if d.tpt.link = .up ∧ armNames d l = true then
    setTpt (fun t => { t with drain := some Config.drainMs }) (sendTester .halt d)
  else endDrain d

/-- The lot enters CLOSING with insertion step DRAIN and the close drain starts (R11, R14, R15). -/
def enterClosing (i : Fin 8) (d : Device) : Device :=
  let d := modifyLot i (fun l => { l with state := .closing, resume := none, step := some .drain }) d
  match lotAt d i with
  | none => d
  | some l => startDrain l d

/-! ## Re-staging (R14) -/

/-- R14: the lot enters STAGING with its insertion open; with step DRAIN it enters CLOSING at once. -/
def restage (i : Fin 8) (d : Device) : Device :=
  let d := modifyLot i (fun l => { l with state := .staging, resume := none, passStarted := false }) d
  if (lotAt d i).any (fun l => l.step == some .drain) then enterClosing i d else settle d

/-! ## Continuing from HELD (R11) -/

/-- R11: tester and handler are as the pass needs. -/
def passNeedsMet (d : Device) (l : Lot) : Bool :=
  armedFor d l && d.hpt.presence == .present && d.hpt.handler == d.hpt.passHandler &&
  d.hpt.kit == l.kit && soakedAt d (currentEntry l).temp

/-- R11: RUNNING or RETEST k, or a re-stage. -/
def continuePass (i : Fin 8) (l : Lot) (k : Nat) (d : Device) : Device :=
  if passNeedsMet d l then settle (enterPass i l k d) else restage i d

def clearCloseMark (i : Fin 8) (d : Device) : Device :=
  modifyLot i (fun l => { l with closeOnContinue := false }) d

/-- R11: the resume steps at which a close-on-continue mark closes a pass. -/
def resumesPass : ResumeStep → Bool
  | .running => true
  | .retest _ => true
  | .staging => true
  | .queued => false
  | .closing => false
  | .review => false

/-- R11: a HELD lot whose set is empty and whose overflow mark is clear continues at its resume step. -/
def lotContinues (i : Fin 8) (d : Device) : Device :=
  match lotAt d i with
  | none => d
  | some l =>
    let r := l.resume.getD .queued
    if l.closeOnContinue ∧ (passOf l).isSome = true ∧ resumesPass r = true then enterClosing i d
    else match r with
      | .queued => enterQueued i (clearCloseMark i d)
      | .review => settle (enterReview i (clearCloseMark i d))
      | .closing => settle (modifyLot i (fun l => { l with state := .closing, resume := none }) d)
      | .staging => restage i d
      | .running => continuePass i l 0 d
      | .retest k => continuePass i l k d

/-- HDU reports the lot's set empty (R164, R174, R177): a HELD lot that nothing holds continues. -/
def continueIfClear (i : Fin 8) (d : Device) : Device :=
  if (lotAt d i).any (fun l => l.state == .held && !holdsLot l) then lotContinues i d else d

/-! ## Removing floor holds (R174, R177) -/

/-- The entry is REMOTE (o, t) with the untracked mark as given. -/
def isRemoteOf (o t : Nat) (untracked : Bool) (e : HoldEntry) : Bool :=
  e.key == .remote o t && e.untracked == untracked

/-- The lot in slot `i` loses its REMOTE (o, t) entry of that kind, and continues when that empties its set. -/
def loseRemote (o t : Nat) (untracked : Bool) (i : Fin 8) (d : Device) : Device :=
  if (lotAt d i).any (fun l => l.holds.any (isRemoteOf o t untracked)) then
    continueIfClear i (modifyLot i (fun l =>
      { l with holds := l.holds.filter fun e => !isRemoteOf o t untracked e }) d)
  else d

/-- In ascending slot order (R174, R177). -/
def loseRemotes (o t : Nat) (untracked : Bool) (d : Device) : Device :=
  slots.foldl (fun d i => loseRemote o t untracked i d) d

/-- R174: a table entry (o, t) is removed. -/
def removeFloorEntry (o t : Nat) (d : Device) : Device :=
  let d := setHdu (fun h => { h with table := h.table.filter fun e => !(e.origin == o && e.tag == t) }) d
  returnRecords o t (loseRemotes o t false d)

/-! ## Hearing floor holds (R173, R175) -/

/-- R173: a HOLD or a listing as a new key: added and applied, or placed untracked when the table is full. -/
def hearNewHold (o program t reason : Nat) (d : Device) : Device :=
  if d.hdu.table.length < 8 then
    let e : FloorHold := ⟨program, o, t, reason, false⟩
    applyFloorHold e (addFloorEntry e d)
  else
    let d := requestRemotes program o t true d
    raise .floor .corrected .floorTableFull o
      (setRecords (d.rlu.records.map (recallUntracked program)) d)

/-- R173: HOLD(P, t, r) heard from peer o. -/
def hearHold (o program t reason : Nat) (d : Device) : Device :=
  match floorEntry d o t with
  | none => hearNewHold o program t reason d
  | some e =>
    if e.program = program then
      setHdu (fun h => { h with table := h.table.map fun e =>
        if e.origin = o ∧ e.tag = t then { e with stale := false, reason } else e }) d
    else hearNewHold o program t reason (removeFloorEntry o t d)

/-- R175: the floor-hold list of a STATUS: omitted entries go, in table order (log 42), then the listed ones are taken
in list order. -/
def hearHoldList (o : Nat) (holds : List HoldField) (d : Device) : Device :=
  let gone := d.hdu.table.filter fun e => e.origin == o && !holds.any (fun h => h.tag == e.tag)
  let d := gone.foldl (fun d e => removeFloorEntry o e.tag d) d
  holds.foldl (fun d h => hearHold o h.program h.tag h.reason d) d

/-! ## Scrap (R19) -/

/-- R19, R37: HALT is sent if the tester is armed for the insertion, and clears the arm record. -/
def haltIfArmed (l : Lot) (d : Device) : Device :=
  if armedFor d l then clearArm (sendTesterIfUp .halt d) else d

/-- R19: the lot leaves the table; an open insertion ends without a close computation, its drain with it
(log 12). -/
def scrapLot (i : Fin 8) (d : Device) : Device :=
  match lotAt d i with
  | none => d
  | some l =>
    let d := if l.opened then stopSilence (setTpt (fun t => { t with drain := none }) (haltIfArmed l d)) else d
    settle (putLot i none d)

/-! ## The pass end (R15, R10) -/

/-- R68: the pass boundary in the accumulator set. -/
def passBoundary (a : Accum) : Accum :=
  { a with unretested := a.unretested + a.pendingNow, pendingNow := a.pendingNext, pendingNext := 0 }

/-- R15: the lot record when the insertion step becomes PASS k + 1. -/
def nextPass (k : Nat) (l : Lot) : Lot :=
  { l with step := some (.pass (k + 1)), passStarted := false, acc := { l.acc with countingPass := k + 1 } }

/-- R15, R10: the state of a lot whose step has become PASS k + 1: RETEST k + 1 with START_PASS, HELD with
resume step RETEST k + 1, or still STAGING. -/
def enterNextPass (i : Fin 8) (k : Nat) (d : Device) : Device :=
  match lotAt d i with
  | none => d
  | some l =>
    if l.state = .running ∨ l.state = .retest then enterPass i l (k + 1) d
    else if l.state = .held ∧ (l.resume = some .running ∨ l.resume = some (.retest k)) then
      putLot i (some { l with resume := some (.retest (k + 1)) }) d
    else d

/-- R15, R10, R37: the step has become DRAIN and the close drain starts: the lot enters CLOSING, or stays HELD with
resume step CLOSING, whatever its resume step was (log 32). -/
def enterDrain (i : Fin 8) (d : Device) : Device :=
  match lotAt d i with
  | none => d
  | some l =>
    if l.state = .held then
      let l := { l with step := some .drain, resume := some .closing }
      startDrain l (putLot i (some l) d)
    else enterClosing i d

/-- R15: LMG advances the lot after RAU has moved the pending counters. -/
def advancePass (i : Fin 8) (k : Nat) (d : Device) : Device :=
  match lotAt d i with
  | none => d
  | some l =>
    if 0 < l.acc.pendingNow ∧ k < (currentEntry l).retests then
      enterNextPass i k (putLot i (some (nextPass k l)) d)
    else enterDrain i d

/-- R15: an accepted PASS_END of pass k with its fed count. -/
def acceptPassEnd (i : Fin 8) (l : Lot) (k fed : Nat) (d : Device) : Device :=
  let intake := d.hpt.intake
  let d := putLot i (some { l with fedCounts := l.fedCounts ++ [(k, fed)], acc := passBoundary l.acc }) d
  let d := if fed ≠ intake then raise .accounting .note .fedMismatch i.val d else d
  settle (advancePass i k d)

end Sys2Proof.Machine
end

