-- ==== Sys2Proof/Machine/Formats.lean ====
section
/-! DEFINITION. Byte layouts: numbers and flags (R209, R210), the READ records (R211), the device summary
(R202) and the response codes (12.5). What R210 and R211 leave of the STATUS, STATS and CELL layouts is
fixed here (DESIGN CHOICE, log 17). -/

namespace Sys2Proof.Machine

/-! ## Numbers and flags -/

/-- A number in `n` bytes, most significant byte first (R209). -/
def be : Nat → Nat → List Byte
  | 0, _ => []
  | n + 1, v => BitVec.ofNat 8 (v / 256 ^ n) :: be n v

def byte1 (v : Nat) : List Byte := be 1 v

/-- A single flag as a byte 0 or 1 (log 17). -/
def flagByte (b : Bool) : List Byte := byte1 (if b then 1 else 0)

/-- R210: a set of named flags is one byte, bit i set for the (i + 1)th name. -/
def flagSet : List Bool → Nat
  | [] => 0
  | b :: bs => (if b then 1 else 0) + 2 * flagSet bs

def zeros (n : Nat) : List Byte := List.replicate n 0

/-- The list in `n` positions, each 0 where unused. -/
def padTo (n : Nat) (l : List Byte) : List Byte := (l ++ zeros n).take n

/-- Whole minutes and seconds of a remaining time, rounded up. -/
def minutesUp (ms : Nat) : Nat := (ms + 59999) / 60000
def secondsUp (ms : Nat) : Nat := (ms + 999) / 1000

/-- A need, idle or quiet timer in 2 bytes: whole seconds rounded up, 0 when not running (R211). -/
def timerBytes (t : Timer) : List Byte := be 2 (t.elim 0 secondsUp)

/-! ## Codes (R210) -/

def tempCode : TempClass → Nat
  | .room => 1
  | .hot => 2
  | .cold => 3

def gradeCode : Option Grade → Nat
  | none => 0
  | some .a => 1
  | some .b => 2
  | some .c => 3

def stateCode : LotState → Nat
  | .queued => 1
  | .staging => 2
  | .running => 3
  | .retest => 4
  | .closing => 5
  | .review => 6
  | .held => 7

def resumeCode : Option ResumeStep → Nat
  | none => 0
  | some .queued => 1
  | some .staging => 2
  | some .running => 3
  | some (.retest k) => 3 + k
  | some .closing => 7
  | some .review => 8

def stepCode : Option InsStep → Nat
  | none => 0
  | some (.pass k) => k + 1
  | some .drain => 5

def flagsOf (f : FlagSet) : Nat := flagSet [f.saturated, f.overcount, f.stray, f.late, f.maskDrop]

def siteCode : SiteState → Nat
  | .enabled => 1
  | .disabling => 2
  | .disabled => 3

def lineCode : LineState → Nat
  | .off => 1
  | .listen => 2
  | .active => 3
  | .quiet => 4
  | .barred => 5

def peerCode : PeerState → Nat
  | .unheard => 1
  | .heard => 2
  | .silent => 3

def handlerStateCode : HandlerState → Nat
  | .unknown => 1
  | .free => 2
  | .claimed => 3
  | .docked => 4

def needCode : NeedState → Nat
  | .idle => 1
  | .seeking => 2
  | .claiming => 3
  | .won => 4
  | .kitChange => 5

def releaseCode : ReleaseState → Nat
  | .delayed => 1
  | .ready => 2
  | .recalled => 3

def outcomeCode : SampleOutcome → Nat
  | .none => 1
  | .skipped => 2
  | .good => 3
  | .degraded => 4

def deviceCode : DeviceState → Nat
  | .config => 1
  | .joined => 2

def roundingCode : Rounding → Nat
  | .truncate => 1
  | .nearest => 2

def binClassCode : BinClass → Nat
  | .pass => 1
  | .fail => 2
  | .retest => 3

/-- Fault codes are numbered within each bank in the order of the table of 11.4; a code listed under two
severities keeps the number of its first listing (R211). -/
def faultNumber : BankName → FaultCode → Nat
  | .floor, .peerSilent => 1
  | .floor, .lineQuiet => 2
  | .floor, .txqDropped => 3
  | .floor, .dockConflict => 4
  | .floor, .handlerMoved => 5
  | .floor, .claimBroken => 6
  | .floor, .dockWaitExpired => 7
  | .floor, .floorTableFull => 8
  | .floor, .txqRefused => 9
  | .floor, .duplicateStation => 10
  | .handler, .badMessage => 1
  | .handler, .notDocked => 2
  | .handler, .unexpected => 3
  | .handler, .dockChanged => 4
  | .handler, .handlerAbsent => 5
  | .handler, .soakFail => 6
  | .handler, .kitMismatch => 7
  | .handler, .kitFail => 8
  | .handler, .kitTimeout => 9
  | .tester, .badMessage => 1
  | .tester, .resultUnarmed => 2
  | .tester, .unexpected => 3
  | .tester, .testerDown => 4
  | .tester, .siteDisabled => 5
  | .tester, .loadMismatch => 6
  | .tester, .loadFail => 7
  | .tester, .loadTimeout => 8
  | .tester, .armFail => 9
  | .accounting, .fedMismatch => 1
  | .accounting, .stray => 2
  | .accounting, .late => 3
  | .accounting, .releaseQueueFull => 4
  | .accounting, .overcount => 5
  | .accounting, .holdSetFull => 6
  | .accounting, .saturated => 7
  | _, _ => 0

/-- The response codes (12.5). -/
def responseNumber : ResponseCode → Nat
  | .ok => 0
  | .notReady => 1
  | .badField => 2
  | .badState => 3
  | .notFound => 4
  | .full => 5
  | .duplicate => 6
  | .range => 7
  | .badFrame => 8
  | .locked => 9

/-- An absent station-number or handler field of a READ record is 255 (R210). -/
def orAbsent (n : Option Nat) : List Byte := byte1 (n.getD 255)

/-- A claim strength or need class; absent it is code 0 (R210; log 16). -/
def classByte (n : Option Nat) : List Byte := byte1 (n.getD 0)

/-! ## The lot record (R211) -/

def planBytes (plan : List PlanEntry) : List Byte :=
  padTo 16 (plan.flatMap fun e => be 2 e.program ++ byte1 (tempCode e.temp) ++ byte1 e.retests)

def fedBytes (fed : List (Nat × Nat)) : List Byte :=
  padTo 16 (fed.flatMap fun e => byte1 e.1 ++ be 3 e.2)

def lotMarks (l : Lot) : Nat :=
  flagSet [l.opened, l.passStarted, l.closeOnContinue, l.releaseWaitNoted, l.unseen, l.overflow]

/-- The 62 bytes of a lot record. -/
def lotRecord : Option Lot → List Byte
  | none => zeros 62
  | some l =>
    byte1 (stateCode l.state) ++ byte1 (resumeCode l.resume) ++ byte1 (lotMarks l) ++
    byte1 (flagsOf l.sticky) ++ byte1 (flagsOf l.marks) ++
    be 4 l.id ++ be 2 l.product ++ byte1 l.kit ++ byte1 l.cls ++ be 2 l.seq ++
    byte1 l.cur ++ byte1 l.completed ++ byte1 (stepCode l.step) ++
    be 3 l.qIn ++ be 3 l.qFirst ++ byte1 l.holdCount ++ be 3 l.runTime ++
    byte1 l.plan.length ++ planBytes l.plan ++ byte1 l.fedCounts.length ++ fedBytes l.fedCounts

/-! ## The hold entry (R211) -/

def reasonCode : HoldKey → Nat
  | .window _ => 1
  | .bin _ _ => 2
  | .siteDelta _ => 3
  | .siteRun _ => 4
  | .count => 5
  | .final => 6
  | .operator _ => 7
  | .remote _ _ => 8
  | .restart => 9

/-- Bits 0 to 3 of byte 1: bin, site, tag and note present. -/
def detailFlags : HoldKey → Nat
  | .window t => flagSet [false, false, t.isSome, false]
  | .bin _ t => flagSet [true, false, t.isSome, false]
  | .siteDelta _ => flagSet [false, true, false, false]
  | .siteRun _ => flagSet [false, true, false, false]
  | .count => 0
  | .final => 0
  | .operator _ => flagSet [false, false, false, true]
  | .remote _ _ => flagSet [false, false, true, false]
  | .restart => 0

/-- Byte 2: the bin, site, origin station or note code. -/
def detailByte : HoldKey → Nat
  | .window _ => 0
  | .bin b _ => b
  | .siteDelta s => s
  | .siteRun s => s
  | .count => 0
  | .final => 0
  | .operator n => n
  | .remote o _ => o
  | .restart => 0

/-- Byte 3: the tag, 0 when absent. -/
def tagByte : HoldKey → Nat
  | .window t => t.getD 0
  | .bin _ t => t.getD 0
  | .remote _ t => t
  | .siteDelta _ => 0
  | .siteRun _ => 0
  | .count => 0
  | .final => 0
  | .operator _ => 0
  | .restart => 0

/-- R180: the state of the table entry a REMOTE entry names; none for an untracked entry. -/
def namedEntryState (d : Device) (e : HoldEntry) : Nat :=
  match e.key with
  | .remote o t =>
    if e.untracked then 0
    else match floorEntry d o t with
      | none => 0
      | some f => if f.stale then 2 else 1
  | _ => 0

/-- The 8 bytes of a hold entry, or of an empty position with the overflow bit. -/
def holdRecord (d : Device) (overflow : Bool) : Option HoldEntry → List Byte
  | none => [0] ++ byte1 (if overflow then 128 else 0) ++ zeros 6
  | some e =>
    byte1 (reasonCode e.key) ++
    byte1 (detailFlags e.key + (if e.untracked then 16 else 0) + 32 * namedEntryState d e +
      (if overflow then 128 else 0)) ++
    byte1 (detailByte e.key) ++ byte1 (tagByte e.key) ++
    byte1 e.insertion ++ be 2 e.placed ++ byte1 e.repeats

/-! ## STATS (R78, R98) -/

def accumBytes (a : Accum) : List Byte :=
  a.first.toList.flatMap (be 3) ++ a.final.toList.flatMap (be 3) ++
  be 3 a.t1 ++ be 3 a.pendingNow ++ be 3 a.pendingNext ++ be 3 a.unretested ++
  byte1 a.countingPass ++ flagByte a.overcountMark

def summaryBytes : Option CloseSummary → List Byte
  | none => zeros 21
  | some m =>
    byte1 m.insertion ++ be 3 m.qIn ++ be 3 m.t1 ++ be 3 m.good ++ be 3 m.reject ++ be 3 m.missing ++
    be 3 m.excess ++ be 2 m.closeTime

def windowBytes : Option WindowValue → List Byte
  | none => zeros 6
  | some w => be 2 w.results ++ be 2 w.pass ++ be 2 w.yield

/-- R98: a site's yield, or the no-value marker where no result was tested. -/
def siteYieldBytes (c : ConfigBlock) (t : Stats) (s : Fin 8) : List Byte :=
  if t.siteTested[s] = 0 then be 2 Config.noYield.toNat
  else be 2 (bp c.rounding t.sitePass[s] t.siteTested[s])

def statsBytes (d : Device) (t : Stats) : List Byte :=
  be 2 t.winResults ++ be 2 t.winPass ++ windowBytes t.holdValue ++
  siteList.flatMap (fun s => be 3 t.siteTested[s] ++ be 3 t.sitePass[s] ++ byte1 t.run[s]) ++
  siteList.flatMap (siteYieldBytes (cfg d) t) ++
  siteList.flatMap (fun s => byte1 (siteCode d.tpt.mask[s])) ++
  byte1 (flagSet [t.winLow, t.binHigh, t.deltaHigh])

def closeYieldBytes : Option CloseSummary → List Byte
  | none => zeros 4
  | some m => be 2 m.finalYield ++ be 2 m.missingShare

/-- The STATS record of a slot: 226 bytes. -/
def statsRecord (d : Device) : Option Lot → List Byte
  | none => zeros 226
  | some l => accumBytes l.acc ++ summaryBytes l.summary ++ statsBytes d l.stats ++ closeYieldBytes l.summary

/-! ## HANDLERS, FLOORHOLDS, RELEASES, FAULTS (R211) -/

/-- The 8 bytes of handler `h`'s entry. -/
def handlerRecord (d : Device) (h : Nat) : List Byte :=
  let e := entryAt d h
  byte1 h ++ byte1 (handlerStateCode e.state) ++ orAbsent e.station ++ byte1 e.kit ++
  byte1 (gradeCode e.grade) ++ classByte e.strength ++ orAbsent e.parkedBy ++
  orAbsent (e.timer.map minutesUp)

/-- The 6 bytes of a floor-hold entry. -/
def floorHoldRecord : Option FloorHold → List Byte
  | none => zeros 6
  | some e =>
    be 2 e.program ++ byte1 e.origin ++ byte1 e.tag ++ byte1 e.reason ++ byte1 (if e.stale then 2 else 1)

/-- R210, R211: recall cause, cause origin (255 where absent) and cause tag (0 where absent) of a READ record. -/
def causeBytes : Option RecallCause → List Byte
  | none => byte1 0 ++ orAbsent none ++ byte1 0
  | some (.entry o t) => byte1 1 ++ orAbsent (some o) ++ byte1 t
  | some .untracked => byte1 2 ++ orAbsent none ++ byte1 0

/-- R191: a READY or RECALLED record shows no remaining delay. -/
def remainingDelay (r : Release) : Nat := r.timer.elim 0 minutesUp

/-- The 52 bytes of a release record, given its remaining delay and its last three; attrition is in two's
complement. -/
def releaseBytes (delay : Nat) (cause : List Byte) (r : Release) : List Byte :=
  be 2 r.number ++ byte1 (releaseCode r.state) ++ byte1 delay ++
  be 4 r.lotId ++ be 2 r.product ++ byte1 r.kit ++
  byte1 r.programs.length ++ padTo 8 (r.programs.flatMap (be 2)) ++
  byte1 r.completed ++ be 3 r.qFirst ++ be 3 r.qLast ++
  be 3 r.good ++ be 3 r.reject ++ be 3 r.missing ++ be 3 r.excess ++
  be 3 (r.attrition % 16777216).toNat ++ be 2 r.finalYield ++
  be 3 r.runTime ++ byte1 r.holdCount ++ byte1 (flagsOf r.marks) ++ cause

def releaseRecord : Option Release → List Byte
  | none => zeros 52
  | some r => releaseBytes (remainingDelay r) (causeBytes r.cause) r

/-- R189, R211: the COLLECT response carries the record with bytes 3 and 49 to 51 at 0. -/
def collectBytes (r : Release) : List Byte := releaseBytes 0 (zeros 3) r

/-- The 6 bytes of a fault bank. -/
def faultBytes (n : BankName) (b : FaultBank) : List Byte :=
  match b.record with
  | none => zeros 6
  | some r =>
    byte1 (flagSet [true, b.overFlag]) ++ byte1 r.severity.rank ++ byte1 (faultNumber n r.code) ++
    byte1 r.reference ++ be 2 r.time

/-! ## CELL (R110, R133, R157, R180, R203) -/

def sampleBytes (l : LastSample) : List Byte :=
  byte1 (outcomeCode l.outcome) ++ orAbsent l.handler ++ be 3 l.results ++ be 3 l.gateOn ++ byte1 l.jams ++
  (match l.uph with
   | some u => be 2 u
   | none => if l.outcome = .none then zeros 2 else be 2 Config.noUph.toNat) ++
  be 2 l.ended

def tpmBytes (d : Device) : List Byte :=
  byte1 (gradeCode d.tpm.grade) ++ byte1 d.tpm.degrade ++ byte1 d.tpm.recover ++
  be 2 (cfg d).samplePeriod ++ be 3 (d.tpm.period.getD 0) ++
  be 3 d.tpm.results ++ be 3 d.tpm.gateOn ++ byte1 d.tpm.jams ++ sampleBytes d.tpm.last

/-- A queue position: kind code, then the handler or tag, 0 where it has neither. -/
def positionBytes (b : Bulletin) : List Byte :=
  byte1 (kindCode b) ++ byte1 (match b with
    | .hold _ t _ => t
    | .lift _ t => t
    | .claim h _ _ => h
    | .dock h _ _ => h
    | .park h _ _ => h
    | .seek _ _ => 0
    | .status => 0)

/-- 12.6: the slot first, then the queued entries, in 12 positions. With an empty slot the queue starts at the first
position (log 36). -/
def queueBytes (f : Fli) : List Byte :=
  padTo 24 ((f.slot.elim [] fun s => positionBytes s.bulletin) ++ f.queue.flatMap fun e => positionBytes e.bulletin)

def peerBytes (f : Fli) : List Byte :=
  (List.range 32).flatMap fun s =>
    if s = f.station then [0] else byte1 (peerCode (f.peers.toList.getD s ⟨.unheard, none⟩).state)

def fliBytes (f : Fli) : List Byte :=
  byte1 f.station ++ byte1 (lineCode f.line) ++ byte1 f.score ++ timerBytes f.quietTimer ++
  be 2 f.rxErrors ++ queueBytes f ++ peerBytes f

/-- Whichever need timer is running. -/
def needTimer (n : Need) : Timer :=
  match n.seekTimer, n.windowTimer, n.dockWaitTimer with
  | some t, _, _ => some t
  | none, some t, _ => some t
  | none, none, t => t

def asuBytes (d : Device) : List Byte :=
  let n := d.asu.need
  byte1 (needCode n.state) ++ byte1 n.kit ++ classByte n.cls ++ orAbsent n.target ++ flagByte n.barred ++
  orAbsent n.passedOver ++ timerBytes (needTimer n) ++
  padTo 4 (d.asu.parked.flatMap byte1) ++ flagByte (handlerIdle d) ++ timerBytes d.asu.idleTimer

def configBytes (c : ConfigBlock) : List Byte :=
  c.bins.toList.flatMap (fun b => flagByte b.floor ++ byte1 (binClassCode b.cls)) ++
  c.bins.toList.flatMap (fun b => be 2 b.sbl) ++
  be 2 c.windowSize ++ be 2 c.windowYieldLimit ++ flagByte c.windowFloor ++ be 2 c.nMin ++
  be 2 c.siteDeltaLimit ++ byte1 c.siteRunLimit ++ flagByte c.siteDisable ++ byte1 c.minSites ++
  be 2 c.finalYieldLimit ++ be 2 c.missingLimit ++ byte1 (roundingCode c.rounding) ++
  byte1 c.statusPeriod ++ be 2 c.claimWindow ++ byte1 c.dockWait ++ byte1 c.idleRelease ++
  byte1 c.releaseDelay ++ be 2 c.loadTimeout ++ byte1 c.soakTimeout ++ byte1 c.kitTimeout ++
  be 2 c.samplePeriod ++ be 2 c.minUph ++ be 2 c.jamThreshold ++ byte1 c.jamLimit ++ flagByte c.readyForced

/-- The CELL record. -/
def cellRecord (d : Device) : List Byte :=
  tpmBytes d ++ fliBytes d.fli ++ asuBytes d ++ byte1 d.hdu.ownTag ++
  byte1 (deviceCode d.ctp.device) ++ be 2 d.ctp.joinClock ++ be 2 d.ctp.frameErrors ++ configBytes (cfg d)

/-! ## The device summary (R202) -/

def bankSummary (b : FaultBank) : List Byte :=
  byte1 (flagSet [b.record.isSome, b.overFlag]) ++ byte1 (b.record.elim 0 fun r => r.severity.rank)

def countRecords (d : Device) (s : ReleaseState) : Nat := d.rlu.records.countP fun r => r.state == s

/-- The payload of the STATUS response. -/
def summaryRecord (d : Device) : List Byte :=
  byte1 (deviceCode d.ctp.device) ++ flagByte d.ctp.config.isSome ++ byte1 d.fli.station ++
  be 2 d.ctp.joinClock ++ byte1 (lineCode d.fli.line) ++
  flagByte (attnLevel d) ++ byte1 (flagSet [attnBank d, attnUnseen d, attnReady d]) ++
  bankSummary d.ctp.floorBank ++ bankSummary d.ctp.handlerBank ++
  bankSummary d.ctp.testerBank ++ bankSummary d.ctp.accountingBank ++
  byte1 (lotList d).length ++ byte1 ((lotList d).countP fun e => e.2.unseen) ++
  byte1 (countRecords d .delayed) ++ byte1 (countRecords d .ready) ++ byte1 (countRecords d .recalled) ++
  be 2 d.ctp.frameErrors

end Sys2Proof.Machine
end

