-- ==== Sys2Proof/Machine/Requests.lean ====
section
/-! DEFINITION. The requests of the cell terminal as CTP takes them once a frame has passed (chapter 11): the
checks in the owner's order, the effect, the response. -/

namespace Sys2Proof.Machine

/-! ## Responses -/

def reply (request : Nat) (code : ResponseCode) (payload : List Byte) (d : Device) : Device :=
  respond ⟨request, code, payload⟩ d

/-- R196: BAD_FIELD carries the number of the failing field. -/
def badField (request field : Nat) (d : Device) : Device := reply request .badField (byte1 field) d

/-- R197: in CONFIG the request is answered NOT_READY and not handed on. -/
def joinedOnly (request : Nat) (act : Device → Device) (d : Device) : Device :=
  match d.ctp.device with
  | .config => reply request .notReady [] d
  | .joined => act d

/-- The number of the first check that fails. -/
def firstBad : List (Nat × Bool) → Option Nat
  | [] => none
  | (n, ok) :: rest => if ok then firstBad rest else some n

/-- Answer BAD_FIELD with the lowest-numbered failing field, or go on. -/
def checkFields (request : Nat) (checks : List (Nat × Bool)) (act : Device → Device) (d : Device) : Device :=
  match firstBad checks with
  | some n => badField request n d
  | none => act d

/-! ## Requests of CTP -/

def setCtp (f : Ctp → Ctp) (d : Device) : Device := { d with ctp := f d.ctp }

/-- CONFIGURE (R198). -/
def configureRequest (fields : List CfgField) (d : Device) : Device :=
  match d.ctp.device with
  | .joined => reply 1 .locked [] d
  | .config => match checkConfig fields with
    | .inl n => badField 1 n d
    | .inr c => reply 1 .ok [] (setCtp (fun t => { t with config := some c }) d)

/-- FLI enters LISTEN and starts its status period timer (R125, R116). -/
def enterListen (d : Device) : Device :=
  { d with fli := { d.fli with line := .listen, statusTimer := some (seconds (cfg d).statusPeriod) } }

/-- JOIN (R199). -/
def joinRequest (d : Device) : Device :=
  match d.ctp.device with
  | .joined => reply 2 .badState [] d
  | .config =>
    if d.ctp.config = none then reply 2 .notReady [] d
    else
      let d := setCtp (fun t => { t with device := .joined, joinClock := 0 }) d
      reply 2 .ok [] (settle (sendHandler .query (sendTester .query (enterListen d))))

/-- RESTART (R200): answered OK; the warm reset begins when the response has been sent (log 8). -/
def restartRequest (d : Device) : Device :=
  joinedOnly 3 (fun d => reply 3 .ok [] (setCtp (fun t => { t with restartPending := true }) d)) d

/-- STATUS (R202). -/
def statusRequestTaken (d : Device) : Device := reply 4 .ok (summaryRecord d) d

/-! ## READ (R203, R204) -/

/-- The tables, coded in the order of R203. -/
inductive Table where
  | lots | holdset | stats | handlers | floorholds | releases | faults | cell
  deriving DecidableEq, Repr

def tableOfCode : Nat → Option Table
  | 1 => some .lots
  | 2 => some .holdset
  | 3 => some .stats
  | 4 => some .handlers
  | 5 => some .floorholds
  | 6 => some .releases
  | 7 => some .faults
  | 8 => some .cell
  | _ => none

/-- The slot field is read for HOLDSET and STATS only. -/
def readsSlot : Table → Bool
  | .holdset => true
  | .stats => true
  | .lots => false
  | .handlers => false
  | .floorholds => false
  | .releases => false
  | .faults => false
  | .cell => false

/-- First and last index of a table. -/
def indexRange : Table → Nat × Nat
  | .lots => (0, 7)
  | .holdset => (0, 5)
  | .stats => (0, 0)
  | .handlers => (1, 48)
  | .floorholds => (0, 7)
  | .releases => (0, 5)
  | .faults => (0, 3)
  | .cell => (0, 0)

/-- One record of a table at an index. -/
def tableRecord (d : Device) (t : Table) (slot index : Nat) : List Byte :=
  match t with
  | .lots => lotRecord (lotAt d (toSite index))
  | .holdset =>
    let l := lotAt d (toSite slot)
    holdRecord d (l.any (·.overflow)) ((l.elim [] (·.holds))[index]?)
  | .stats => statsRecord d (lotAt d (toSite slot))
  | .handlers => handlerRecord d index
  | .floorholds => floorHoldRecord d.hdu.table[index]?
  | .releases => releaseRecord d.rlu.records[index]?
  | .faults => match bankOfCode (index + 1) with
    | some n => faultBytes n (bank d n)
    | none => []
  | .cell => cellRecord d

/-- The records of an accepted READ, in ascending index order. -/
def readRecords (d : Device) (t : Table) (slot first count : Nat) : List Byte :=
  (List.range count).flatMap fun i => tableRecord d t slot (first + i)

/-- R204: a READ of LOTS clears the unseen mark of each lot it returns. -/
def clearUnseen (first count : Nat) (d : Device) : Device :=
  slots.foldl (fun d i =>
    if inRange first (first + count - 1) i.val then modifyLot i (fun l => { l with unseen := false }) d else d) d

/-- READ (R203). -/
def readRequest (table slot first count : Nat) (d : Device) : Device :=
  joinedOnly 5 (fun d =>
    match tableOfCode table with
    | none => badField 5 1 d
    | some t =>
      if readsSlot t ∧ 7 < slot then badField 5 2 d
      else if count = 0 ∨ 16 < count then badField 5 4 d
      else if first < (indexRange t).1 ∨ (indexRange t).2 < first + count - 1 then reply 5 .range [] d
      else reply 5 .ok (readRecords d t slot first count) (if t = .lots then clearUnseen first count d else d)) d

/-- The mark's byte and the lot ID it named, 0 where clear (log 17). -/
def markBytes (m : Option Nat) : List Byte := flagByte m.isSome ++ be 4 (m.getD 0)

/-- RETRY (R205): the three marks are cleared, then the blocks check their start conditions again. -/
def retryRequest (d : Device) : Device :=
  joinedOnly 6 (fun d =>
    let bytes := markBytes d.tpt.loadBlocked ++ markBytes d.tpt.armRefused ++ markBytes d.hpt.soakBlocked
    let d := setTpt (fun t => { t with loadBlocked := none, armRefused := none }) d
    reply 6 .ok bytes (settle (setHpt (fun h => { h with soakBlocked := none }) d))) d

/-- CLEAR_FAULT (R206). -/
def clearFaultRequest (b : Nat) (d : Device) : Device :=
  joinedOnly 14 (fun d =>
    match bankOfCode b with
    | none => badField 14 1 d
    | some n => reply 14 .ok (faultBytes n (bank d n)) (settle (setBank n .empty d))) d

/-- R194: a frame that fails is answered BAD_FRAME and counted. -/
def countFrameError (d : Device) : Device :=
  setCtp (fun t => { t with frameErrors := satAdd 65535 t.frameErrors 1 }) d

def badFrameTaken (crcPassed : Bool) (code : Nat) (d : Device) : Device :=
  reply (if crcPassed then code else 0) .badFrame [] (countFrameError d)

/-! ## ADMIT and WITHDRAW (R3 to R5, R18) -/

/-- R3, check 2: the fields with their numbers. Entries past the count are not read, and none is when the
count is out of range. -/
def planChecks : Nat → List PlanField → List (Nat × Bool)
  | _, [] => []
  | n, e :: es =>
    (n, isProgram e.program) :: (n + 1, inRange 1 3 e.temp) :: (n + 2, decide (e.retests ≤ 3)) ::
      planChecks (n + 3) es

def admitChecks (lotId product kit cls qty planCount : Nat) (plan : List PlanField) : List (Nat × Bool) :=
  [ (1, inRange 1 4294967295 lotId), (2, inRange 1 65535 product), (3, inRange 1 255 kit),
    (4, decide (cls ≤ 3)), (5, inRange 1 500000 qty), (6, inRange 1 4 planCount) ] ++
  planChecks 7 (plan.take planCount)

def planEntryOf (e : PlanField) : PlanEntry :=
  ⟨e.program, (tempOfCode e.temp).getD .room, e.retests⟩

/-- R1: a lot ID is held by a lot in the table or by a release record. -/
def idHeld (d : Device) (id : Nat) : Bool :=
  (slotOfId d id).isSome || d.rlu.records.any fun r => r.lotId == id

/-- R5: the lots present get sequence numbers 1 to n in their present order. -/
def renumber (d : Device) : Device :=
  let rank (l : Lot) : Nat := (lotList d).countP fun e => e.2.seq ≤ l.seq
  { d with lmg := { lots := vmap (Option.map fun l => { l with seq := rank l }) d.lmg.lots
                    sequence := (lotList d).length } }

/-- R5: the counter before the new lot takes its number. -/
def readySequence (d : Device) : Device := if 65535 ≤ d.lmg.sequence then renumber d else d

/-- R4: the record of a newly admitted lot. -/
def newLot (lotId product kit cls qty seq : Nat) (plan : List PlanEntry) : Lot :=
  { id := lotId, product, kit, cls, seq, plan, cur := 1, qIn := qty, qFirst := qty, completed := 0
    state := .queued, resume := none, opened := false, step := none, passStarted := false
    closeOnContinue := false, releaseWaitNoted := false, unseen := false, holdCount := 0, runTime := 0
    fedCounts := [], acc := .zero, sticky := .clear, marks := .clear, stats := .zero, summary := none
    holds := [], overflow := false }

/-- R169: one tracked REMOTE request for each floor-hold entry that covers the new lot, in table order. -/
def coverNewLot (i : Fin 8) (l : Lot) (d : Device) : Device :=
  (d.hdu.table.filter fun e => lotCovered l e.program).foldl
    (fun d e => storeHold i (.remote e.origin e.tag) false d) d

/-- R4: the lot fills slot `i`: QUEUED, or HELD where a floor hold covers it. -/
def admitLot (i : Fin 8) (l : Lot) (d : Device) : Device :=
  let d := readySequence d
  let seq := d.lmg.sequence + 1
  let l := { l with seq }
  let d := putLot i (some l) { d with lmg := { d.lmg with sequence := seq } }
  let held := d.hdu.table.any fun e => lotCovered l e.program
  let d := if held then enterHeld i (coverNewLot i l d) else enterQueued i d
  reply 7 .ok (byte1 i.val ++ byte1 (stateCode (if held then .held else .queued))) d

/-- The lowest-numbered empty slot (R4). -/
def emptySlot (d : Device) : Option (Fin 8) := slots.find? fun i => (lotAt d i).isNone

/-- ADMIT (R3, R4). -/
def admitRequest (lotId product kit cls qty planCount : Nat) (plan : List PlanField) (d : Device) : Device :=
  joinedOnly 7 (checkFields 7 (admitChecks lotId product kit cls qty planCount plan) fun d =>
    if idHeld d lotId then reply 7 .duplicate [] d
    else match emptySlot d with
      | none => reply 7 .full [] d
      | some i => admitLot i (newLot lotId product kit cls qty 0 ((plan.take planCount).map planEntryOf)) d) d

/-- R18: the states from which a lot may be withdrawn. -/
def withdrawable (l : Lot) : Bool :=
  !l.opened && (l.state == .queued || l.state == .staging || l.state == .held)

/-- WITHDRAW (R18). -/
def withdrawRequest (lotId : Nat) (d : Device) : Device :=
  joinedOnly 8 (fun d =>
    match slotOfId d lotId with
    | none => reply 8 .notFound [] d
    | some i =>
      if (lotAt d i).any withdrawable then reply 8 .ok [] (settle (putLot i none d))
      else reply 8 .badState [] d) d

/-! ## Holds (R162 to R165, R171, R172, R177) -/

/-- R163, 12.5: the detail flags each reason takes. -/
def detailFlagsOk (reason flags : Nat) : Bool :=
  match reason with
  | 1 => flags == 0 || flags == 4
  | 2 => flags == 1 || flags == 5
  | 3 => flags == 2
  | 4 => flags == 2
  | 7 => flags == 8
  | 8 => flags == 4
  | _ => flags == 0

def detailOk (reason detail : Nat) : Bool :=
  match reason with
  | 2 => inRange 1 15 detail
  | 3 => detail ≤ 7
  | 4 => detail ≤ 7
  | 7 => detail ≤ 255
  | 8 => detail ≤ 31
  | _ => detail == 0

/-- The tag field: 1 to 255 where the flags name a tag, otherwise 0. -/
def tagOk (flags tag : Nat) : Bool := if 4 ≤ flags % 8 then inRange 1 255 tag else tag == 0

def disposeChecks (lotId reason flags detail tag disposition : Nat) : List (Nat × Bool) :=
  [ (1, inRange 1 4294967295 lotId), (2, inRange 1 10 reason), (3, detailFlagsOk reason flags),
    (4, detailOk reason detail), (5, tagOk flags tag), (6, inRange 1 3 disposition) ]

/-- The key a DISPOSE names; none for OVERFLOW. -/
def disposeKey (reason detail tag : Nat) : Option HoldKey :=
  let tagOr : Option Nat := if tag = 0 then none else some tag
  match reason with
  | 1 => some (.window tagOr)
  | 2 => some (.bin detail tagOr)
  | 3 => some (.siteDelta detail)
  | 4 => some (.siteRun detail)
  | 5 => some .count
  | 6 => some .final
  | 7 => some (.operator detail)
  | 8 => some (.remote detail tag)
  | 9 => some .restart
  | _ => none

/-- R163, check 4. -/
def keyPresent (l : Lot) : Option HoldKey → Bool
  | none => l.overflow
  | some k => l.holds.any fun e => e.key == k

/-- R163, checks 5 and 6. -/
def keyRefused (l : Lot) : Option HoldKey → Bool
  | none => 6 ≤ l.holds.length
  | some k => isRemote k

/-- R164: RESUME removes the entry or clears the overflow mark; CLOSE also sets close-on-continue. -/
def disposeLot (key : Option HoldKey) (close : Bool) (l : Lot) : Lot :=
  let l := match key with
    | none => { l with overflow := false }
    | some k => { l with holds := l.holds.filter fun e => e.key != k }
  if close then { l with closeOnContinue := true } else l

/-- DISPOSE (R163 to R165). -/
def disposeRequest (lotId reason flags detail tag disposition : Nat) (d : Device) : Device :=
  joinedOnly 9 (checkFields 9 (disposeChecks lotId reason flags detail tag disposition) fun d =>
    let key := disposeKey reason detail tag
    match slotOfId d lotId with
    | none => reply 9 .notFound [] d
    | some i =>
      if (lotAt d i).any (fun l => !keyPresent l key) then reply 9 .notFound [] d
      else if disposition = 3 then reply 9 .ok [] (scrapLot i d)
      else if (lotAt d i).any (fun l => keyRefused l key) then reply 9 .badState [] d
      else
        reply 9 .ok [] (settle (continueIfClear i
          (modifyLot i (disposeLot key (disposition == 2)) d)))) d

/-- The outcome of PLACE_HOLD: STORED 1, REPEAT 2, OVERFLOW 3 (R162, R210). -/
def outcomeNumber : HoldOutcome → Nat
  | .stored => 1
  | .repeated => 2
  | .overflow => 3

/-- PLACE_HOLD (R162). -/
def placeHoldRequest (lotId note : Nat) (d : Device) : Device :=
  joinedOnly 10 (checkFields 10 [(1, inRange 1 4294967295 lotId), (2, decide (note ≤ 255))] fun d =>
    match slotOfId d lotId with
    | none => reply 10 .notFound [] d
    | some i => match lotAt d i with
      | none => reply 10 .notFound [] d
      | some l =>
        reply 10 .ok (byte1 (outcomeNumber (holdOutcome l (.operator note))))
          (settle (holdRequest i (.operator note) false d))) d

/-- PLACE_FLOOR_HOLD (R172). -/
def placeFloorHoldRequest (program reason : Nat) (d : Device) : Device :=
  joinedOnly 11 (checkFields 11 [(1, isProgram program), (2, inRange 3 15 reason)] fun d =>
    match ownEntryFor d program with
    | some e => reply 11 .duplicate (byte1 e.tag) d
    | none =>
      if 8 ≤ d.hdu.table.length then reply 11 .full [] d
      else
        let t := nextTag d
        reply 11 .ok (byte1 t)
          (settle (applyFloorHold ⟨program, ownStation d, t, reason, false⟩ (originate program reason d)))) d

/-- LIFT_FLOOR (R171). -/
def liftFloorRequest (tag : Nat) (d : Device) : Device :=
  joinedOnly 12 (checkFields 12 [(1, inRange 1 255 tag)] fun d =>
    match floorEntry d (ownStation d) tag with
    | none => reply 12 .notFound [] d
    | some e =>
      reply 12 .ok [] (settle (offerLift e.program tag (removeFloorEntry (ownStation d) tag d)))) d

/-- R177: some lot holds an untracked REMOTE (o, t). -/
def untrackedHeld (d : Device) (o t : Nat) : Bool :=
  (lotList d).any fun e => e.2.holds.any (isRemoteOf o t true)

/-- OVERRIDE (R177). -/
def overrideRequest (origin tag : Nat) (d : Device) : Device :=
  joinedOnly 18 (checkFields 18 [(1, decide (origin ≤ 31)), (2, inRange 1 255 tag)] fun d =>
    match floorEntry d origin tag with
    | some e =>
      if e.stale then reply 18 .ok [] (settle (removeFloorEntry origin tag d)) else reply 18 .badState [] d
    | none =>
      if untrackedHeld d origin tag then reply 18 .ok [] (settle (loseRemotes origin tag true d))
      else reply 18 .notFound [] d) d

/-! ## CLEAR_STICKY, SET_GRADE (R75, R109) -/

/-- CLEAR_STICKY (R75). -/
def clearStickyRequest (lotId : Nat) (d : Device) : Device :=
  joinedOnly 13 (fun d =>
    match slotOfId d lotId with
    | none => reply 13 .notFound [] d
    | some i => reply 13 .ok [] (modifyLot i (fun l => { l with sticky := .clear }) d)) d

/-- R108, R155: a grade report; ASU records the grade in the handler's entry. -/
def reportGrade (h : Nat) (g : Grade) (d : Device) : Device :=
  setEntry h { entryAt d h with grade := some g } d

/-- R109: the handler in LEAVING; a new PARK carries grade A. -/
def reparkLeaving (h : Nat) (d : Device) : Device :=
  let d := reportGrade h .a d
  offer (.park h (entryAt d h).kit (some .a)) d

/-- SET_GRADE (R109). -/
def setGradeRequest (handler : Nat) (d : Device) : Device :=
  joinedOnly 15 (checkFields 15 [(1, isHandler handler)] fun d =>
    if d.hpt.handler = some handler then
      let changed := d.tpm.grade = some .b ∨ d.tpm.grade = some .c
      let d := setTpm (fun t => { t with grade := some .a, degrade := 0, recover := 0 }) d
      let d :=
        if changed then
          (if d.hpt.presence = .leaving then reparkLeaving handler d else reportGrade handler .a d)
        else d
      reply 15 .ok [] (settle d)
    else reply 15 .notFound [] d) d

/-! ## Release (R189, R190) -/

/-- COLLECT (R189). -/
def collectRequest (number : Nat) (d : Device) : Device :=
  joinedOnly 16 (checkFields 16 [(1, inRange 1 65535 number)] fun d =>
    match recordNumbered d number with
    | none => reply 16 .notFound [] d
    | some r =>
      if r.state = .ready then reply 16 .ok (collectBytes r) (settle (removeRecord number d))
      else reply 16 .badState (byte1 (releaseCode r.state)) d) d

/-- DISPOSE_RELEASE (R190): disposition RESUME 1, SCRAP 2 (R210, in the order R190 lists them). -/
def disposeReleaseRequest (number disposition : Nat) (d : Device) : Device :=
  joinedOnly 17 (checkFields 17 [(1, inRange 1 65535 number), (2, inRange 1 2 disposition)] fun d =>
    match recordNumbered d number with
    | none => reply 17 .notFound [] d
    | some r =>
      if r.state ≠ .recalled then reply 17 .badState [] d
      else if disposition = 2 then reply 17 .ok [] (settle (removeRecord number d))
      else if r.cause ≠ some .untracked then reply 17 .badState [] d
      else reply 17 .ok [] (modifyRecord number (placeRecord (cfg d) (firstCover d r.programs)) d)) d

/-! ## Frames that complete while CTP is not free (R195, R200) -/

/-- R195: up to 2 further frames wait; one more is discarded and counted. -/
def waitRequest (i : Instr) (d : Device) : Device :=
  if d.ctp.waiting.length < 2 then setCtp (fun t => { t with waiting := t.waiting ++ [i] }) d
  else countFrameError d

/-- A frame that completes is taken at once; while RESTART's warm reset is due or a warm reset is held it
waits (logs 7, 8); while a power-on reset is held nothing is taken (log 6). -/
def onFrame (i : Instr) (taken : Device → Device) (d : Device) : Device :=
  match d.ctp.hold with
  | .powerOn => d
  | .warm => waitRequest i d
  | .running => if d.ctp.restartPending then waitRequest i d else taken d

end Sys2Proof.Machine
end

