-- ==== Sys2Proof/Machine/TerminalCmds.lean ====
section
/-! DEFINITION. The meanings of the cell terminal's requests (chapter 11), each a frame as it completes. -/

namespace Sys2Proof.Machine

/-- The state with the device as the command left it, both output pins following their rules (R55, R208). -/
def moved (s : State) (d : Device) : State := { s with dev := refreshPins d }

/-- Every command ends in a next state. -/
def commit (s : State) (d : Device) : Host.Outcome State Fault Refusal := .next (moved s d)

/-- CONFIGURE (R198). -/
def execConfigure (fields : List CfgField) (s : State) : Host.Outcome State Fault Refusal :=
  commit s (onFrame (.configure fields) (configureRequest fields) s.dev)

/-- JOIN (R199). -/
def execJoin (s : State) : Host.Outcome State Fault Refusal :=
  commit s (onFrame .join joinRequest s.dev)

/-- RESTART (R200). -/
def execRestart (s : State) : Host.Outcome State Fault Refusal :=
  commit s (onFrame .restart restartRequest s.dev)

/-- STATUS_REQUEST (R202). -/
def execStatusRequest (s : State) : Host.Outcome State Fault Refusal :=
  commit s (onFrame .statusRequest statusRequestTaken s.dev)

/-- READ (R203, R204). -/
def execRead (table slot first count : Nat) (s : State) : Host.Outcome State Fault Refusal :=
  commit s (onFrame (.read table slot first count) (readRequest table slot first count) s.dev)

/-- RETRY (R205). -/
def execRetry (s : State) : Host.Outcome State Fault Refusal :=
  commit s (onFrame .retry retryRequest s.dev)

/-- ADMIT (R3, R4, R5). -/
def execAdmit (lotId product kit cls qty planCount : Nat) (plan : List PlanField) (s : State) :
    Host.Outcome State Fault Refusal :=
  commit s (onFrame (.admitLot lotId product kit cls qty planCount plan)
    (admitRequest lotId product kit cls qty planCount plan) s.dev)

/-- WITHDRAW (R18). -/
def execWithdraw (lotId : Nat) (s : State) : Host.Outcome State Fault Refusal :=
  commit s (onFrame (.withdraw lotId) (withdrawRequest lotId) s.dev)

/-- DISPOSE (R163 to R165). -/
def execDispose (lotId reason flags detail tag disposition : Nat) (s : State) :
    Host.Outcome State Fault Refusal :=
  commit s (onFrame (.dispose lotId reason flags detail tag disposition)
    (disposeRequest lotId reason flags detail tag disposition) s.dev)

/-- PLACE_HOLD (R162). -/
def execPlaceHold (lotId note : Nat) (s : State) : Host.Outcome State Fault Refusal :=
  commit s (onFrame (.placeHold lotId note) (placeHoldRequest lotId note) s.dev)

/-- PLACE_FLOOR_HOLD (R172). -/
def execPlaceFloorHold (program reason : Nat) (s : State) : Host.Outcome State Fault Refusal :=
  commit s (onFrame (.placeFloorHold program reason) (placeFloorHoldRequest program reason) s.dev)

/-- LIFT_FLOOR (R171). -/
def execLiftFloor (tag : Nat) (s : State) : Host.Outcome State Fault Refusal :=
  commit s (onFrame (.liftFloor tag) (liftFloorRequest tag) s.dev)

/-- OVERRIDE (R177). -/
def execOverride (origin tag : Nat) (s : State) : Host.Outcome State Fault Refusal :=
  commit s (onFrame (.override origin tag) (overrideRequest origin tag) s.dev)

/-- CLEAR_STICKY (R75). -/
def execClearSticky (lotId : Nat) (s : State) : Host.Outcome State Fault Refusal :=
  commit s (onFrame (.clearSticky lotId) (clearStickyRequest lotId) s.dev)

/-- CLEAR_FAULT (R206). -/
def execClearFault (b : Nat) (s : State) : Host.Outcome State Fault Refusal :=
  commit s (onFrame (.clearFault b) (clearFaultRequest b) s.dev)

/-- SET_GRADE (R109). -/
def execSetGrade (handler : Nat) (s : State) : Host.Outcome State Fault Refusal :=
  commit s (onFrame (.setGrade handler) (setGradeRequest handler) s.dev)

/-- COLLECT (R189). -/
def execCollect (number : Nat) (s : State) : Host.Outcome State Fault Refusal :=
  commit s (onFrame (.collect number) (collectRequest number) s.dev)

/-- DISPOSE_RELEASE (R190). -/
def execDisposeRelease (number disposition : Nat) (s : State) : Host.Outcome State Fault Refusal :=
  commit s (onFrame (.disposeRelease number disposition) (disposeReleaseRequest number disposition) s.dev)

/-- BAD_FRAME (R194). -/
def execBadFrame (crcPassed : Bool) (code : Nat) (s : State) : Host.Outcome State Fault Refusal :=
  commit s (onFrame (.badFrame crcPassed code) (badFrameTaken crcPassed code) s.dev)

/-- REQUEST_FRAME_DISCARDED (R195): no response, the frame error count rises. -/
def execRequestFrameDiscarded (s : State) : Host.Outcome State Fault Refusal :=
  commit s (if s.dev.ctp.hold = .powerOn then s.dev else countFrameError s.dev)

end Sys2Proof.Machine
end

