-- ==== Sys2Proof/Machine/TesterCmds.lean ====
section
/-! DEFINITION. The meanings of the tester's messages and of TPT's timers (chapter 2). -/

namespace Sys2Proof.Machine

/-! ## Intake -/

/-- A timer that runs starts again at `ms`; a stopped one stays stopped. -/
def restartTimer (ms : Nat) (t : Timer) : Timer := t.map fun _ => ms

/-- R22, R23: a message that passes its frame check restarts the silence timer, and while the link is UP the
1 s without a message. -/
def testerHeard (d : Device) : Device :=
  setTpt (fun t =>
    { t with
      silence := restartTimer Config.silenceMs t.silence
      query := if t.link = .up then restartTimer Config.queryMs t.query else t.query }) d

def testerBad (d : Device) : Device := raise .tester .note .badMessage 255 d
def testerUnexpected (d : Device) : Device := raise .tester .note .unexpected 255 d

/-- R22: a tester message in its range is taken, one with a field out of range is dropped; nothing is taken in
CONFIG or while a reset is held. -/
def onTester (fieldsOk : Bool) (act : Device → Device) (d : Device) : Device :=
  if live d then settle (if fieldsOk then act (testerHeard d) else testerBad (testerHeard d)) else d

/-- A timer's expiry: it acts only while the timer runs, in JOINED with no reset held (log 3). -/
def onTimer (running : Bool) (act : Device → Device) (d : Device) : Device :=
  if live d && running then settle (act d) else d

/-! ## Loads (R26, R27, R29) -/

/-- R26: the end of the load in flight with program `p`. -/
def loadEnds (ld : Load) (p : Nat) (d : Device) : Device :=
  let d := setTpt (fun t => { t with load := none, loaded := p }) d
  if p = ld.program then setTpt (fun t => { t with loadBlocked := none }) d
  else raise .tester .corrected .loadMismatch (slotRef d ld.lot)
    (setTpt (fun t => { t with loadBlocked := some ld.lot }) d)

/-- R23, R29: the arm record names a program other than `p`. -/
def armContradicts (d : Device) (p : Nat) : Bool := d.tpt.arm.state != .unarmed && d.tpt.arm.program != p

/-- R29: LOADED(p) with no load in flight. -/
def loadedUnexpected (p : Nat) (d : Device) : Device :=
  let d := testerUnexpected (setTpt (fun t => { t with loaded := p }) d)
  if armContradicts d p then
    clearArm (raise .tester .corrected .loadMismatch (slotRef d d.tpt.arm.lot) d)
  else d

def takeLoaded (p : Nat) (d : Device) : Device :=
  match d.tpt.load with
  | some ld => loadEnds ld p d
  | none => loadedUnexpected p d

/-- R27: the load in flight fails with the given code. -/
def loadFails (code : FaultCode) (ld : Load) (d : Device) : Device :=
  raise .tester .corrected code (slotRef d ld.lot)
    (setTpt (fun t => { t with load := none, loaded := 0, loadBlocked := some ld.lot }) d)

/-! ## Arming (R31) -/

/-- R31: sites that were DISABLING and are off in the mask sent become DISABLED. -/
def settleSites (sent : BitVec 8) (d : Device) : Device :=
  siteList.foldl (fun d s =>
    if d.tpt.mask[s] = .disabling ∧ sent.getLsbD s.val = false then setSite s .disabled d else d) d

/-- R31: a site became DISABLING after the ARM was sent, so that its mask still enables it. -/
def maskOwed (d : Device) : Bool :=
  siteList.any fun s => d.tpt.mask[s] == .disabling && d.tpt.arm.mask.getLsbD s.val

/-- R31: ARMED for the open insertion. -/
def armTaken (d : Device) : Device :=
  let d := settleSites d.tpt.arm.mask (setTpt (fun t => { t with arm := { t.arm with state := .armed } }) d)
  if maskOwed d ∧ d.tpt.link = .up then sendMask d else d

def takeArmed (d : Device) : Device :=
  if d.tpt.arm.state = .sent then
    if (openLot d).any (fun e => armNames d e.2) then armTaken d
    else testerUnexpected (clearArm (sendTesterIfUp .halt d))
  else testerUnexpected d

def takeArmFail (d : Device) : Device :=
  if d.tpt.arm.state = .sent then
    let lot := d.tpt.arm.lot
    raise .tester .corrected .armFail (slotRef d lot)
      (setTpt (fun t => { t with armRefused := some lot }) (clearArm d))
  else testerUnexpected d

/-- R33: the sites an acknowledged MASK named. -/
def acknowledgeSites (entry : BitVec 8) (d : Device) : Device :=
  siteList.foldl (fun d s =>
    if d.tpt.mask[s] = .disabling ∧ entry.getLsbD s.val = true then setSite s .disabled d else d) d

def takeMaskOk (d : Device) : Device :=
  match d.tpt.outstanding with
  | [] => testerUnexpected d
  | e :: rest => acknowledgeSites e (setTpt (fun t => { t with outstanding := rest }) d)

/-! ## TOUCHDOWN (R34 to R36) -/

/-- R35: where a TOUCHDOWN's results go. -/
def touchdown (results : List (Fin 8 × Fin 16)) (d : Device) : Device :=
  match openLot d with
  | some (i, _) => results.foldl (fun d r => touchResult i r.1 r.2 d) d
  | none => match lastClosedSlot d with
    | some i => results.foldl (fun d _ => lateResult i d) d
    | none => raise .tester .note .resultUnarmed 255 d

/-! ## Link (R23, R24) -/

/-- R24: TESTER_DOWN, UNCORRECTED with the lot's slot while an insertion is open. -/
def raiseTesterDown (d : Device) : Device :=
  match openLot d with
  | some (i, _) => raise .tester .uncorrected .testerDown i.val d
  | none => raise .tester .note .testerDown 255 d

/-- R24: the tester goes out of service. -/
def outOfService (link : LinkState) (d : Device) : Device :=
  let draining := d.tpt.drain.isSome
  let d := clearArm (setTpt (fun t =>
    { t with link, loaded := 0, load := none, outstanding := [], silence := none }) (raiseTesterDown d))
  if draining then endDrain d else d

def takeDown (d : Device) : Device :=
  if d.tpt.link = .down ∨ d.tpt.link = .silent then raiseTesterDown d else outOfService .down d

/-- R23: UP(p) on a link that is not UP. The message starts the 1 s without a message, with which QUERY then goes
out while an insertion is open. -/
def linkComesUp (p : Nat) (d : Device) : Device :=
  let silence : Timer := if anyOpen d then some Config.silenceMs else none
  setTpt (fun t =>
    { t with link := .up, loaded := p, silence, query := restartTimer Config.queryMs t.query }) d

/-- R23: UP(p) contradicting the loaded program. -/
def upContradicts (p : Nat) (d : Device) : Device :=
  let ref := (openLot d).elim 255 fun e => e.1.val
  let d := raise .tester .corrected .loadMismatch ref (setTpt (fun t => { t with loaded := p }) d)
  if armContradicts d p then clearArm d else d

def takeUp (p : Nat) (d : Device) : Device :=
  if d.tpt.link ≠ .up then linkComesUp p d
  else if d.tpt.load.isSome ∨ d.tpt.loaded = p then d
  else upContradicts p d

/-! ## Meanings: messages -/

/-- LOADED (R26, R29). -/
def execLoaded (program : Nat) (s : State) : Host.Outcome State Fault Refusal :=
  commit s (onTester (isProgram program) (takeLoaded program) s.dev)

/-- LOAD_FAIL (R27, R29). -/
def execLoadFail (code : Nat) (s : State) : Host.Outcome State Fault Refusal :=
  commit s (onTester (code ≤ 255) (fun d => match d.tpt.load with
    | some ld => loadFails .loadFail ld d
    | none => testerUnexpected d) s.dev)

/-- ARMED (R31). -/
def execArmed (s : State) : Host.Outcome State Fault Refusal :=
  commit s (onTester true takeArmed s.dev)

/-- ARM_FAIL (R31). -/
def execArmFail (code : Nat) (s : State) : Host.Outcome State Fault Refusal :=
  commit s (onTester (code ≤ 255) takeArmFail s.dev)

/-- TOUCHDOWN (R34 to R36). -/
def execTouchdown (repeats entryCount : Nat) (entries : List (Nat × Nat)) (s : State) :
    Host.Outcome State Fault Refusal :=
  commit s (onTester (touchdownOk repeats entryCount entries)
    (touchdown (expandTouchdown repeats entries)) s.dev)

/-- MASK_OK (R33). -/
def execMaskOk (s : State) : Host.Outcome State Fault Refusal :=
  commit s (onTester true takeMaskOk s.dev)

/-- IDLE (R37): it ends a running close drain. -/
def execIdle (s : State) : Host.Outcome State Fault Refusal :=
  commit s (onTester true (fun d => if d.tpt.drain.isSome then endDrain d else d) s.dev)

/-- DOWN (R24). -/
def execDown (s : State) : Host.Outcome State Fault Refusal :=
  commit s (onTester true takeDown s.dev)

/-- UP (R23). -/
def execUp (program : Nat) (s : State) : Host.Outcome State Fault Refusal :=
  commit s (onTester (program ≤ 4095) (takeUp program) s.dev)

/-- TESTER_BAD_MESSAGE (R22). -/
def execTesterBadMessage (framePassed : Bool) (s : State) : Host.Outcome State Fault Refusal :=
  commit s (if live s.dev then
    settle (testerBad (if framePassed then testerHeard s.dev else s.dev)) else s.dev)

/-! ## Meanings: timers -/

/-- SILENCE_TIMER_EXPIRY (R24). -/
def execSilenceTimerExpiry (s : State) : Host.Outcome State Fault Refusal :=
  commit s (onTimer s.dev.tpt.silence.isSome (outOfService .silent) s.dev)

/-- LOAD_TIMER_EXPIRY (R27). -/
def execLoadTimerExpiry (s : State) : Host.Outcome State Fault Refusal :=
  commit s (onTimer s.dev.tpt.load.isSome (fun d => match d.tpt.load with
    | some ld => loadFails .loadTimeout ld d
    | none => d) s.dev)

/-- DRAIN_TIMER_EXPIRY (R37). -/
def execDrainTimerExpiry (s : State) : Host.Outcome State Fault Refusal :=
  commit s (onTimer s.dev.tpt.drain.isSome endDrain s.dev)

/-- TESTER_QUERY_TIMER (R23): QUERY is sent and the second starts again. -/
def execTesterQueryTimer (s : State) : Host.Outcome State Fault Refusal :=
  commit s (onTimer s.dev.tpt.query.isSome (fun d =>
    setTpt (fun t => { t with query := some Config.queryMs }) (sendTester .query d)) s.dev)

end Sys2Proof.Machine
end

