-- ==== Sys2Proof/Machine/HandlerCmds.lean ====
section
/-! DEFINITION. The meanings of the handler's messages, of HPT's timers and of READY (chapter 3), with the dock
reports to ASU and TPM (R100, R142, R151), and of TPM's two time commands (chapter 6). -/

namespace Sys2Proof.Machine

/-! ## Intake (R40, R41) -/

/-- R40: a message that passes its frame check restarts the absence timer while a handler is PRESENT. -/
def handlerHeard (d : Device) : Device :=
  if d.hpt.presence = .present then setHpt (fun h => { h with absence := some Config.absenceMs }) d else d

/-- R40: the docked handler's ID; else the ID carried by the message; else the dock record's; else 255 (logs 11, 41). -/
def handlerRef (carried : Option Nat) (d : Device) : Nat :=
  match dockedHandler d with
  | some h => h
  | none => match carried with
    | some h => h
    | none => d.hpt.handler.getD 255

def handlerNote (code : FaultCode) (d : Device) : Device := raise .handler .note code (handlerRef none d) d

def handlerBad (carried : Option Nat) (d : Device) : Device :=
  raise .handler .note .badMessage (handlerRef carried d) d

/-- R40: a message in its range is taken, one with a field out of range is dropped; nothing is taken in CONFIG
or while a reset is held. -/
def onHandler (fieldsOk : Bool) (carried : Option Nat) (act : Device → Device) (d : Device) : Device :=
  if live d then
    settle (if fieldsOk then act (handlerHeard d) else handlerBad carried (handlerHeard d))
  else d

/-- R41: a message other than HELLO and BYE is taken in PRESENT only. -/
def whenPresent (act : Device → Device) (d : Device) : Device :=
  match d.hpt.presence with
  | .present => act d
  | .empty => handlerNote .notDocked d
  | .absent => handlerNote .notDocked d
  | .leaving => d

/-! ## Docks (R42, R100, R142, R151) -/

/-- R42: the record takes h and k and becomes PRESENT; absence timer, soak, kit change and capture afresh. -/
def becomePresent (h k : Nat) (d : Device) : Device :=
  setHpt (fun p =>
    { dropWork p with
      presence := .present, handler := some h, kit := k, absence := some Config.absenceMs, soakHeard := false }) d

/-- R151: after an own dock WON and CLAIMING for the target clear it and re-evaluate the need. -/
def needAfterDock (d : Device) : Device :=
  let d := setNeed
    { d.asu.need with
      state := .seeking, target := none, claimSent := false
      seekTimer := none, windowTimer := none, dockWaitTimer := none } d
  if needExists d then toSeeking d else endNeed d

/-- R151: an own dock of handler `h` as the need takes it. -/
def ownDockNeed (h : Nat) (d : Device) : Device :=
  match d.asu.need.state, d.asu.need.target with
  | .won, some t => needAfterDock (if t = h then d else releaseWon t d)
  | .claiming, some t => if t = h then needAfterDock (removeClaim d) else d
  | _, _ => d

/-- R142, R100: entry h becomes DOCKED here, DOCK is offered, TPM takes the same grade, the need is taken. -/
def reportDock (h k : Nat) (d : Device) : Device :=
  let g : Grade := (entryAt d h).grade.getD .a
  let d := setEntry h (entryDocked (ownStation d) k (some g)) d
  ownDockNeed h (setTpm (tpmDock h g) (offer (.dock h k (some g)) d))

/-- R42: a dock from EMPTY. -/
def dock (h k : Nat) (d : Device) : Device := reportDock h k (becomePresent h k d)

/-- R142: on a change of dock to another handler the entry of the old one becomes UNKNOWN, and R153: its idle timer
stops, so that the new one's starts at its dock. -/
def forgetOld (old : Option Nat) (h : Nat) (d : Device) : Device :=
  match old with
  | some g => if g = h then d else stopIdle (setEntry g (entryUnknown (entryAt d g)) d)
  | none => d

/-- R42, R14: the open insertion at a change of dock. -/
def dockChanged (h : Nat) (d : Device) : Device :=
  match openLot d with
  | none => d
  | some (i, l) =>
    let d := raise .handler .note .dockChanged h d
    if l.state = .running ∨ l.state = .retest then restage i d else d

/-- R42: a change of dock. -/
def changeDock (h k : Nat) (d : Device) : Device :=
  let old := d.hpt.handler
  dockChanged h (reportDock h k (forgetOld old h (becomePresent h k d)))

/-- R42: a return. -/
def dockReturn (h k : Nat) (d : Device) : Device := becomePresent h k d

/-- R42: HELLO(h, k). -/
def takeHello (h k : Nat) (d : Device) : Device :=
  let same := d.hpt.handler = some h ∧ d.hpt.kit = k
  match d.hpt.presence with
  | .empty => dock h k d
  | .present => if same then d else changeDock h k d
  | .absent => if same then dockReturn h k d else changeDock h k d
  | .leaving =>
    if d.hpt.handler = some h then raise .handler .note .unexpected h d
    else dock h k (handlerGone d)

/-! ## Absence (R43, R44) -/

/-- R43: a PRESENT handler becomes ABSENT. -/
def becomeAbsent (d : Device) : Device :=
  let ref := handlerRef none d
  let d := setHpt (fun h => { dropWork h with presence := .absent, absence := none }) d
  if anyOpen d then raise .handler .uncorrected .handlerAbsent ref d
  else raise .handler .note .handlerAbsent ref d

/-- R44: the leaving timer stops, and LEAVING ends. -/
def leavingEnds (d : Device) : Device :=
  let d := setHpt (fun h => { h with leaving := none }) d
  if d.hpt.presence = .leaving then handlerGone d else d

/-- R43, R44: the first BYE while the leaving timer runs is the leaving handler's. -/
def takeBye (d : Device) : Device :=
  if d.hpt.leaving.isSome then leavingEnds d
  else match d.hpt.presence with
    | .present => becomeAbsent d
    | .empty => handlerNote .notDocked d
    | .absent => handlerNote .notDocked d
    | .leaving => d

/-! ## Soak (R46, R47) -/

/-- R47: STATE with no soak in flight sets the soaked class. -/
def takeState (temp : Nat) (d : Device) : Device :=
  setHpt (fun h =>
    { h with soakHeard := true, soaked := if h.soak.isSome then h.soaked else tempOfCode temp }) d

/-- R46: the mark is cleared if it names the lot the soak was started for. -/
def unblock (lot : Nat) (mark : Option Nat) : Option Nat := if mark = some lot then none else mark

/-- R46, R47: SOAKED(c). -/
def takeSoaked (temp : Nat) (d : Device) : Device :=
  let c := tempOfCode temp
  let d := setHpt (fun h => { h with soakHeard := true }) d
  match d.hpt.soak with
  | none => setHpt (fun h => { h with soaked := c }) d
  | some k =>
    if c = some k.cls then
      setHpt (fun h => { h with soaked := c, soak := none, soakBlocked := unblock k.lot h.soakBlocked }) d
    else handlerNote .unexpected d

/-- R46: the soak in flight fails. -/
def soakFails (k : Soak) (d : Device) : Device :=
  raise .handler .corrected .soakFail (handlerRef none d)
    (setHpt (fun h => { h with soaked := none, soak := none, soakBlocked := some k.lot }) d)

/-! ## Kit change (R49, R50, R152) -/

/-- R142: the docked handler's entry takes the kit and a DOCK with it is offered. -/
def reportKit (k : Nat) (d : Device) : Device :=
  match dockedHandler d with
  | none => d
  | some h =>
    let e := entryAt d h
    offer (.dock h k e.grade) (setEntry h { e with kit := k } d)

/-- R152: a failed kit change sets the kit-change-barred mark of a need in KIT_CHANGE. -/
def barKitChange (d : Device) : Device :=
  if d.asu.need.state = .kitChange then setNeed { d.asu.need with barred := true } d else d

/-- R49: the kit change ends at KIT_DONE(k). -/
def kitChangeDone (c : KitChange) (k : Nat) (d : Device) : Device :=
  let d := setHpt (fun h => { h with kitChange := none, kit := k }) d
  let d := if k = c.kit then d
    else barKitChange (raise .handler .corrected .kitMismatch (handlerRef none d) d)
  reportKit k d

/-- R49: the kit change fails with the dock record's kit at 0. -/
def kitChangeFails (code : FaultCode) (d : Device) : Device :=
  let d := setHpt (fun h => { h with kitChange := none, kit := 0 }) d
  barKitChange (raise .handler .corrected code (handlerRef none d) d)

/-- R50: KIT_DONE(k) with no kit change in flight. It is reported to ASU, which offers a DOCK (R142), also where k is
the kit the dock record has already (log 43). -/
def kitDoneUnexpected (k : Nat) (d : Device) : Device :=
  let d := handlerNote .unexpected d
  if anyOpen d then d else reportKit k (setHpt (fun h => { h with kit := k, soaked := none }) d)

def takeKitDone (k : Nat) (d : Device) : Device :=
  match d.hpt.kitChange with
  | some c => kitChangeDone c k d
  | none => kitDoneUnexpected k d

/-! ## Index capture (R57, R104) -/

/-- The largest accumulator value. -/
def captureTop : Nat := 16777215

/-- R104: a completed interval handed to TPM is a jam at or above the jam threshold. -/
def tpmInterval (interval : Nat) (d : Device) : Device :=
  if (cfg d).jamThreshold * 100 ≤ interval then
    setTpm (fun t => { t with jams := satAdd 255 t.jams 1 }) d
  else d

/-- R57: what the judgement of a complete interval leaves of the capture. -/
def captureAfter (h : Hpt) : Hpt := { h with capAcc := 0, capFirst := false, capSpoiled := !h.effRun }

/-- R57: INDEX(v, flag). -/
def takeIndex (v : Nat) (continued : Bool) (d : Device) : Device :=
  let d := setHpt (fun h => { h with capAcc := satAdd captureTop h.capAcc v }) d
  if continued then d
  else
    let interval := d.hpt.capAcc
    let handed := !d.hpt.capSpoiled && !d.hpt.capFirst
    setHpt captureAfter (if handed then tpmInterval interval d else d)

/-! ## UNIT_LOST and PASS_END (R53, R54) -/

/-- R54: UNIT_LOST(s) is a result of bin 0. -/
def takeUnitLost (site : Nat) (d : Device) : Device :=
  match openLot d with
  | some (i, _) => openResult i (toSite site) 0 d
  | none => match lastClosedSlot d with
    | some i => lateResult i d
    | none => handlerNote .unexpected d

/-- R53: PASS_END(p, fed) is accepted for the lot with the open insertion. -/
def passEndAccepted (d : Device) (l : Lot) (p : Nat) : Bool :=
  l.step == some (.pass p) && d.hpt.pass == some p && d.hpt.presence == .present &&
  d.hpt.handler == d.hpt.passHandler

def takePassEnd (p fed : Nat) (d : Device) : Device :=
  match openLot d with
  | some (i, l) => if passEndAccepted d l p then acceptPassEnd i l p fed d else handlerNote .badMessage d
  | none => handlerNote .badMessage d

/-! ## Meanings: messages -/

/-- HELLO (R42). -/
def execHello (handler kit : Nat) (s : State) : Host.Outcome State Fault Refusal :=
  commit s (onHandler (isHandler handler && kit ≤ 255) (some handler) (takeHello handler kit) s.dev)

/-- STATE (R47). -/
def execState (temp : Nat) (s : State) : Host.Outcome State Fault Refusal :=
  commit s (onHandler (temp ≤ 3) none (whenPresent (takeState temp)) s.dev)

/-- SOAKED (R46, R47). -/
def execSoaked (temp : Nat) (s : State) : Host.Outcome State Fault Refusal :=
  commit s (onHandler (inRange 1 3 temp) none (whenPresent (takeSoaked temp)) s.dev)

/-- SOAK_FAIL (R46, R47). -/
def execSoakFail (code : Nat) (s : State) : Host.Outcome State Fault Refusal :=
  commit s (onHandler (code ≤ 255) none (whenPresent fun d => match d.hpt.soak with
    | some k => soakFails k d
    | none => handlerNote .unexpected d) s.dev)

/-- KIT_DONE (R49, R50). -/
def execKitDone (kit : Nat) (s : State) : Host.Outcome State Fault Refusal :=
  commit s (onHandler (inRange 1 255 kit) none (whenPresent (takeKitDone kit)) s.dev)

/-- KIT_FAIL (R49, R50). -/
def execKitFail (code : Nat) (s : State) : Host.Outcome State Fault Refusal :=
  commit s (onHandler (code ≤ 255) none (whenPresent fun d =>
    if d.hpt.kitChange.isSome then kitChangeFails .kitFail d else handlerNote .unexpected d) s.dev)

/-- INDEX (R57). -/
def execIndex (interval : Nat) (continued : Bool) (s : State) : Host.Outcome State Fault Refusal :=
  commit s (onHandler (interval ≤ 32767) none (whenPresent (takeIndex interval continued)) s.dev)

/-- UNIT_LOST (R54). -/
def execUnitLost (site : Nat) (s : State) : Host.Outcome State Fault Refusal :=
  commit s (onHandler (site ≤ 7) none (whenPresent (takeUnitLost site)) s.dev)

/-- PASS_END (R53). -/
def execPassEnd (pass fed : Nat) (s : State) : Host.Outcome State Fault Refusal :=
  commit s (onHandler (pass ≤ 3 && fed ≤ Config.countTop) none (whenPresent (takePassEnd pass fed)) s.dev)

/-- BYE (R43, R44). -/
def execBye (s : State) : Host.Outcome State Fault Refusal :=
  commit s (onHandler true none takeBye s.dev)

/-- HANDLER_BAD_MESSAGE (R40). -/
def execHandlerBadMessage (framePassed : Bool) (carried : Option Nat) (s : State) :
    Host.Outcome State Fault Refusal :=
  commit s (if live s.dev then
    settle (handlerBad carried (if framePassed then handlerHeard s.dev else s.dev)) else s.dev)

/-! ## Meanings: timers and READY -/

/-- ABSENCE_TIMER_EXPIRY (R43). -/
def execAbsenceTimerExpiry (s : State) : Host.Outcome State Fault Refusal :=
  commit s (onTimer s.dev.hpt.absence.isSome becomeAbsent s.dev)

/-- LEAVING_TIMER_EXPIRY (R44). -/
def execLeavingTimerExpiry (s : State) : Host.Outcome State Fault Refusal :=
  commit s (onTimer s.dev.hpt.leaving.isSome leavingEnds s.dev)

/-- SOAK_TIMER_EXPIRY (R46). -/
def execSoakTimerExpiry (s : State) : Host.Outcome State Fault Refusal :=
  commit s (onTimer s.dev.hpt.soak.isSome (fun d => match d.hpt.soak with
    | some k => soakFails k d
    | none => d) s.dev)

/-- KIT_CHANGE_TIMER_EXPIRY (R49). -/
def execKitChangeTimerExpiry (s : State) : Host.Outcome State Fault Refusal :=
  commit s (onTimer s.dev.hpt.kitChange.isSome (kitChangeFails .kitTimeout) s.dev)

/-- HANDLER_QUERY_TIMER (R41): QUERY is sent and the second starts again. -/
def execHandlerQueryTimer (s : State) : Host.Outcome State Fault Refusal :=
  commit s (onTimer s.dev.hpt.query.isSome (fun d =>
    setHpt (fun h => { h with query := some Config.queryMs }) (sendHandler .query d)) s.dev)

/-- READY_CHANGE (R56): the pin takes its level in every state; effective run follows. -/
def execReadyChange (level : Bool) (s : State) : Host.Outcome State Fault Refusal :=
  commit s { s.dev with pins := { s.dev.pins with ready := level } }

/-! ## Throughput (R101 to R111) -/

/-- R105: half the period length in ms. -/
def halfPeriod (c : ConfigBlock) : Nat := c.samplePeriod * 1000 / 2

/-- R105: UPH of a valid sample. -/
def uphOf (results gateOn : Nat) : Nat := min 65535 (results * 3600000 / gateOn)

/-- R106. -/
def degraded (c : ConfigBlock) (uph jams : Nat) : Bool := uph < c.minUph || c.jamLimit ≤ jams

/-- R105, R106: the outcome of a sample with its UPH. -/
def judgeSample (c : ConfigBlock) (t : Tpm) : SampleOutcome × Option Nat :=
  if t.gateOn < halfPeriod c then (.skipped, none)
  else
    let uph := uphOf t.results t.gateOn
    (if degraded c uph t.jams then .degraded else .good, some uph)

def gradeDown : Grade → Grade
  | .a => .b
  | .b => .c
  | .c => .c

def gradeUp : Grade → Grade
  | .c => .b
  | .b => .a
  | .a => .a

/-- R107: the table of grade and counts. -/
def applySample (o : SampleOutcome) (t : Tpm) : Tpm :=
  match o with
  | .degraded =>
    if t.degrade < 2 then { t with degrade := t.degrade + 1, recover := 0 }
    else { t with grade := t.grade.map gradeDown, degrade := 0, recover := 0 }
  | .good =>
    if t.recover < 7 then { t with recover := t.recover + 1, degrade := 0 }
    else { t with grade := t.grade.map gradeUp, degrade := 0, recover := 0 }
  | .skipped => t
  | .none => t

/-- R101, R105, R110: the sample is judged, its record kept, and a new period starts. -/
def endSample (c : ConfigBlock) (t : Tpm) (time : Nat) : Tpm :=
  let j := judgeSample c t
  { applySample j.1 t with
    last := ⟨j.1, t.sampled, t.results, t.gateOn, t.jams, j.2, time⟩
    period := some 0, results := 0, gateOn := 0, jams := 0 }

/-- R108: a change of grade is reported; ASU records it in the docked handler's entry. -/
def reportIfChanged (before : Option Grade) (d : Device) : Device :=
  match dockedHandler d, d.tpm.grade with
  | some h, some g => if before = some g then d else reportGrade h g d
  | _, _ => d

/-- PERIOD_END (R101, R105 to R108). -/
def execPeriodEnd (s : State) : Host.Outcome State Fault Refusal :=
  commit s (onTimer s.dev.tpm.period.isSome (fun d =>
    reportIfChanged d.tpm.grade (setTpm (fun t => endSample (cfg d) t (now d)) d)) s.dev)

/-- R111: whole seconds pass from the carry to the lot's run time. -/
def addRunTime (secs : Nat) (l : Lot) : Lot := { l with runTime := satAdd 16777215 l.runTime secs }

/-- R102, R111: `ms` of gate-on time, which count toward the run time of the open lot as well. -/
def accrue (ms : Nat) (d : Device) : Device :=
  let total := d.tpm.carry + ms
  let d := setTpm (fun t => { t with gateOn := t.gateOn + ms, carry := total % 1000 }) d
  match openLot d with
  | none => d
  | some (i, _) => modifyLot i (addRunTime (total / 1000)) d

/-- R101, R102: of `ms` milliseconds, those that the period timer counts: none without a running period, and none
past its length, where the period end is due (log 4). -/
def countedMs (c : ConfigBlock) (t : Tpm) (ms : Nat) : Nat :=
  t.period.elim 0 fun p => min ms (c.samplePeriod * 1000 - p)

/-- R101, R102, R111: `ms` pass at TPM. The period timer counts them, and while effective run is on gate-on time and
run time grow by the same milliseconds, so gate-on never outruns the period. -/
def elapse (ms : Nat) (d : Device) : Device :=
  let n := countedMs (cfg d) d.tpm ms
  let d := setTpm (fun t => { t with period := t.period.map (· + n) }) d
  if d.hpt.effRun then accrue n d else d

/-- RUN_TIME_SECOND (R102, R111): `ms` whole milliseconds of effective run pass at TPM (log 4). -/
def execRunTimeSecond (ms : Nat) (s : State) : Host.Outcome State Fault Refusal :=
  commit s (if live s.dev && s.dev.hpt.effRun then elapse ms s.dev else s.dev)

end Sys2Proof.Machine
end

