-- ==== Sys2Proof/Machine/FloorCmds.lean ====
section
/-! DEFINITION. The meanings of the floor line's events (chapter 7): bulletins heard, the own attempts, the
line timers; with what a heard bulletin does at ASU (R137 to R141, R149, R151, R154) and HDU (R173 to R176). -/

namespace Sys2Proof.Machine

def setFli (f : Fli → Fli) (d : Device) : Device := { d with fli := f d.fli }

/-! ## Intake (R122 to R124) -/

/-- FLI drives and reads the line: JOINED, no reset held, line state other than OFF (R125). -/
def floorLive (d : Device) : Bool := live d && d.fli.line != .off

/-- R118: the line falls idle at the end of every frame. -/
def frameEnds (d : Device) : Device := setFli (fun f => { f with busy := false }) d

/-- R122: a dropped frame. -/
def frameDropped (d : Device) : Device := setFli (fun f => { f with rxErrors := satAdd 65535 f.rxErrors 1 }) d

def setPeer (o : Nat) (p : Peer) (d : Device) : Device :=
  setFli (fun f => { f with peers := f.peers.setIfInBounds o p }) d

def peerAt (d : Device) (o : Nat) : Peer := d.fli.peers.toList.getD o ⟨.unheard, none⟩

/-- R132: the peer silence limit. -/
def peerLimit (c : ConfigBlock) : Nat := 4 * seconds c.statusPeriod

/-- R124: the peer record is HEARD and its silence timer restarts. -/
def markHeard (o : Nat) (d : Device) : Device := setPeer o ⟨.heard, some (peerLimit (cfg d))⟩ d

/-- R122 to R124: a frame of origin `o` that passed its other checks. -/
def onBulletin (o : Nat) (formed : Bool) (act : Device → Device) (d : Device) : Device :=
  if floorLive d then
    let d := frameEnds d
    if !formed then frameDropped d
    else if o = ownStation d then settle (duplicateHeard d)
    else settle (act (markHeard o d))
  else d

/-! ## ASU: what heard bulletins do to the need (R149, R151) -/

/-- R149: ASU asks for the removal of its CLAIM and the state becomes SEEKING. -/
def claimGivenUp (d : Device) : Device := toSeeking (removeClaim d)

/-- R149: target lost; an entry CLAIMED at the own station is FREE or UNKNOWN again. -/
def targetLost (h : Nat) (d : Device) : Device :=
  claimGivenUp (if ownClaimed d h then setEntry h (entryUnclaimed (entryAt d h)) d else d)

/-- R149, R151: entry `h` has become DOCKED at a peer. -/
def needAfterPeerDock (h : Nat) (d : Device) : Device :=
  if d.asu.need.target = some h then
    match d.asu.need.state with
    | .claiming => targetLost h d
    | .won => toSeeking (raise .floor .note .claimBroken h d)
    | .idle => d
    | .seeking => d
    | .kitChange => d
  else d

/-- R149: the target's entry has taken a kit other than the need's, or grade C. -/
def needAfterPark (h : Nat) (d : Device) : Device :=
  let e := entryAt d h
  if d.asu.need.state = .claiming ∧ d.asu.need.target = some h ∧
      (e.kit ≠ d.asu.need.kit ∨ e.grade = some .c) then
    targetLost h d
  else d

/-- R149, R151: a heard CLAIM of class `p` from `o` for the target. The own claim is that of the last own CLAIM
offered, as R149 has it for CLAIMING, in WON too (log 44). -/
def needAfterClaim (o h p : Nat) (d : Device) : Device :=
  let n := d.asu.need
  if n.target = some h then
    let beats := stronger p o (n.lastClass.getD 0) (ownStation d)
    match n.state with
    | .claiming =>
      if beats then claimGivenUp d else if n.claimSent then offerClaim h d else d
    | .won => if beats then toSeeking d else offerClaim h d
    | .idle => d
    | .seeking => d
    | .kitChange => d
  else d

/-! ## ASU: the handler table (R137 to R140) -/

/-- R140: the bulletin names the handler of the own dock record; in ABSENT the dock record is released. -/
def dockConflict (h : Nat) (released : Device → Device) (d : Device) : Device :=
  if d.hpt.presence = .absent then raise .floor .note .handlerMoved h (released (undock d))
  else raise .floor .note .dockConflict h d

/-- R137, R141: every entry DOCKED at `o` becomes UNKNOWN. -/
def peerUndocks (o : Nat) (d : Device) : Device :=
  mapEntries (fun e => if e.state = .docked ∧ e.station = some o then entryUnknown e else e) d

/-- R137: DOCK(h, k, g) from `o`. The entries docked there before become UNKNOWN. -/
def hearDock (o h k : Nat) (g : Option Grade) (d : Device) : Device :=
  let d := peerUndocks o d
  let take (d : Device) : Device := setEntry h (entryDocked o k g) d
  needAfterPeerDock h (if dockedHandler d = some h then dockConflict h take d else take d)

/-- R138: PARK(h, k, g) from `o` as the entry takes it. A CLAIMED entry keeps its claim timer, as R138 gives; R139
says that a PARK stops it (log 37). -/
def entryParked (o k : Nat) (g : Option Grade) (e : HandlerEntry) : HandlerEntry :=
  if e.state = .claimed then { e with parkedBy := some o, kit := k, grade := g } else entryFree o k g

/-- R138: PARK(h, k, g) from `o`. -/
def hearPark (o h k : Nat) (g : Option Grade) (d : Device) : Device :=
  let take (d : Device) : Device := setEntry h (entryParked o k g (entryAt d h)) d
  needAfterPark h (if dockedHandler d = some h then dockConflict h take d else take d)

/-- R150: the need is WON with target `h`. -/
def wonTarget (d : Device) (h : Nat) : Bool := d.asu.need.state == .won && d.asu.need.target == some h

/-- R138: an entry of the parked list of a STATUS. A CLAIMED entry is unchanged (R138) but for the target of a need
in WON, which takes kit, grade and parked-by (R150; log 38). A handler released by it is taken as a PARK (log 31). -/
def hearParked (o : Nat) (p : HandlerField) (d : Device) : Device :=
  let h := p.handler
  let g := gradeOfCode p.grade
  let free (d : Device) : Device := setEntry h (entryFree o p.kit g) d
  if dockedHandler d = some h then dockConflict h free d
  else
    match (entryAt d h).state with
    | .unknown => needAfterPark h (free d)
    | .free => needAfterPark h (free d)
    | .claimed => if wonTarget d h then setEntry h (entryParked o p.kit g (entryAt d h)) d else d
    | .docked => d

/-- R137: the docked field of a STATUS. -/
def hearDockedField (o : Nat) (c : StatusField) (d : Device) : Device :=
  if c.handler = 0 then peerUndocks o d else hearDock o c.handler c.kit (gradeOfCode c.grade) d

/-- R124: the two parts of a STATUS; the need is re-evaluated after each entry (R144, log 25). -/
def hearStatus (o : Nat) (c : StatusField) (d : Device) : Device :=
  let d := needEval (hearDockedField o c d)
  let d := c.parked.foldl (fun d p => needEval (hearParked o p d)) d
  hearHoldList o c.holds d

/-- R139: CLAIM(h, k, p) from `o`. -/
def hearClaim (o h p : Nat) (d : Device) : Device :=
  needAfterClaim o h p
    (setEntry h (entryClaim (minutes (cfg d).dockWait) (ownStation d) o p (entryAt d h)) d)

/-- R154: SEEK(K', p') from a peer releases an idle docked handler of that kit. -/
def hearSeek (kit : Nat) (d : Device) : Device :=
  if handlerIdle d ∧ d.hpt.kit = kit then parkDocked d else d

/-- R175: LIFT(P, t, 0) from `o`. -/
def hearLift (o t : Nat) (d : Device) : Device :=
  if (floorEntry d o t).isSome then removeFloorEntry o t d else d

/-! ## Meanings: frames heard -/

/-- HOLD_RECEIVED (R122 to R124, R173). -/
def execHoldReceived (origin program tag reason : Nat) (s : State) : Host.Outcome State Fault Refusal :=
  commit s (onBulletin origin (holdOk ⟨program, tag, reason⟩) (hearHold origin program tag reason) s.dev)

/-- LIFT_RECEIVED (R122 to R124, R175). -/
def execLiftReceived (origin program tag reason : Nat) (s : State) : Host.Outcome State Fault Refusal :=
  commit s (onBulletin origin (liftOk program tag reason) (hearLift origin tag) s.dev)

/-- CLAIM_RECEIVED (R139, R149, R151). -/
def execClaimReceived (origin handler kit cls : Nat) (s : State) : Host.Outcome State Fault Refusal :=
  commit s (onBulletin origin (claimOk handler kit cls) (hearClaim origin handler cls) s.dev)

/-- DOCK_RECEIVED (R137, R140, R149, R151). -/
def execDockReceived (origin handler kit grade : Nat) (s : State) : Host.Outcome State Fault Refusal :=
  commit s (onBulletin origin (handlerFieldOk ⟨handler, kit, grade⟩)
    (hearDock origin handler kit (gradeOfCode grade)) s.dev)

/-- PARK_RECEIVED (R138, R140, R149). -/
def execParkReceived (origin handler kit grade : Nat) (s : State) : Host.Outcome State Fault Refusal :=
  commit s (onBulletin origin (handlerFieldOk ⟨handler, kit, grade⟩)
    (hearPark origin handler kit (gradeOfCode grade)) s.dev)

/-- SEEK_RECEIVED (R154). -/
def execSeekReceived (origin kit cls : Nat) (s : State) : Host.Outcome State Fault Refusal :=
  commit s (onBulletin origin (seekOk kit cls) (hearSeek kit) s.dev)

/-- STATUS_RECEIVED (R124, R137, R138, R175). -/
def execStatusReceived (origin : Nat) (content : StatusField) (s : State) : Host.Outcome State Fault Refusal :=
  commit s (onBulletin origin (statusOk content) (hearStatus origin content) s.dev)

/-- DUPLICATE_STATION (R123). -/
def execDuplicateStation (s : State) : Host.Outcome State Fault Refusal :=
  commit s (if floorLive s.dev then settle (duplicateHeard (frameEnds s.dev)) else s.dev)

/-- FLOOR_FRAME_DROPPED (R122). -/
def execFloorFrameDropped (s : State) : Host.Outcome State Fault Refusal :=
  commit s (if floorLive s.dev then frameDropped (frameEnds s.dev) else s.dev)

/-- LINE_BUSY (R118). -/
def execLineBusy (s : State) : Host.Outcome State Fault Refusal :=
  commit s (if floorLive s.dev then setFli (fun f => { f with busy := true }) s.dev else s.dev)

/-! ## Sending (R117 to R121) -/

/-- R117: the cell state IDLE 1, STAGING 2, TESTING 3, HALTED 4. -/
def cellState (d : Device) : Nat :=
  if (stagingLot d).isSome then 2
  else match openLot d with
    | none => 1
    | some (_, l) => if l.state = .held then 4 else 3

/-- Floor holds in ascending tag order (R117). -/
def insertByTag (h : HoldField) : List HoldField → List HoldField
  | [] => [h]
  | x :: xs => if h.tag ≤ x.tag then h :: x :: xs else x :: insertByTag h xs

def ownHolds (d : Device) : List HoldField :=
  ((d.hdu.table.filter fun e => e.origin == ownStation d).map
    fun e => (⟨e.program, e.tag, e.reason⟩ : HoldField)).foldr insertByTag []

/-- R117: a parked handler with the kit and grade recorded for it. -/
def parkedField (d : Device) (h : Nat) : HandlerField :=
  ⟨h, (entryAt d h).kit, gradeCode (entryAt d h).grade⟩

/-- R117: the content of a STATUS, composed at each attempt. -/
def composeStatus (d : Device) : StatusField :=
  let docked := dockedHandler d
  { cellState := cellState d
    queued := (lotList d).countP fun e => e.2.state == .queued
    handler := docked.getD 0
    kit := if docked.isSome then d.hpt.kit else 0
    grade := if docked.isSome then gradeCode d.tpm.grade else 0
    parked := d.asu.parked.map (parkedField d)
    holds := ownHolds d }

/-- R118: an attempt may begin. -/
def attemptOpen (d : Device) : Bool :=
  floorLive d && d.fli.line == .active && d.fli.slot.isNone && !d.fli.busy

/-- R118: the head entry moves into the slot, a STATUS is composed, the frame is driven. -/
def beginAttempt (e : QEntry) (rest : List QEntry) (d : Device) : Device :=
  let content := if isStatus e.bulletin then some (composeStatus d) else none
  setFli (fun f => { f with queue := rest, slot := some ⟨e.bulletin, e.age, content, false⟩, busy := true }) d

/-- ATTEMPT_BEGIN (R117, R118). -/
def execAttemptBegin (s : State) : Host.Outcome State Fault Refusal :=
  commit s (match s.dev.fli.queue with
    | [] => s.dev
    | e :: rest => if attemptOpen s.dev then beginAttempt e rest s.dev else s.dev)

/-- What an event of the own attempt does: nothing where no attempt runs. -/
def onAttempt (act : TxSlot → Device → Device) (d : Device) : Device :=
  match d.fli.slot with
  | none => d
  | some sl => if floorLive d then settle (act sl d) else d

/-- ARBITRATION_LOST (R119, R121): the score is unchanged; the winner's frame goes on. -/
def execArbitrationLost (s : State) : Host.Outcome State Fault Refusal :=
  commit s (onAttempt (fun _ d => returnSlot d) s.dev)

/-- R148: SENT for the own CLAIM of handler `h` and class `p`. -/
def claimSent (h p : Nat) (d : Device) : Device :=
  let n := d.asu.need
  if n.target = some h ∧ (n.state = .claiming ∨ n.state = .won) then
    let d := setEntry h (entryClaim 0 (ownStation d) (ownStation d) p (entryAt d h)) d
    if n.state = .claiming ∧ n.claimSent = false then
      setNeed { n with claimSent := true, windowTimer := some (cfg d).claimWindow } d
    else d
  else d

/-- FLI reports SENT to the block that enqueued the bulletin (R120, R148, R168). -/
def reportSent (b : Bulletin) (d : Device) : Device :=
  match b with
  | .hold .. => clearInPlay b d
  | .lift .. => clearInPlay b d
  | .claim h _ p => claimSent h p d
  | .dock .. => d
  | .park .. => d
  | .seek .. => d
  | .status => d

/-- R120, R126: the bulletin is sent. -/
def bulletinSent (sl : TxSlot) (d : Device) : Device :=
  let d := setFli (fun f => { f with slot := none, score := f.score - 1, busy := false }) d
  reportSent sl.bulletin (sendFloor ⟨sl.bulletin, sl.content⟩ d)

/-- BULLETIN_SENT (R120). -/
def execBulletinSent (s : State) : Host.Outcome State Fault Refusal :=
  commit s (onAttempt bulletinSent s.dev)

/-- R127: entry to QUIET at a score of 64 or more. -/
def quietCheck (d : Device) : Device :=
  if 64 ≤ d.fli.score ∧ d.fli.line = .active then
    setFli (fun f => { f with line := .quiet, quietTimer := some Config.quietMs })
      (raise .floor .note .lineQuiet (ownStation d) d)
  else d

/-- R120, R126: a transmit error. -/
def transmitError (d : Device) : Device :=
  quietCheck (returnSlot (setFli (fun f => { f with score := f.score + 8 }) d))

/-- TRANSMIT_ERROR (R120, R121, R127). -/
def execTransmitError (s : State) : Host.Outcome State Fault Refusal :=
  commit s (onAttempt (fun _ d => transmitError d) s.dev)

/-! ## Line timers (R116, R127, R132) -/

/-- R116: the status period timer restarts, then the line state decides. -/
def statusPeriod (d : Device) : Device :=
  let d := setFli (fun f => { f with statusTimer := some (seconds (cfg d).statusPeriod) }) d
  match d.fli.line with
  | .listen => setFli (fun f => { f with line := .active }) (offer .status d)
  | .active => offer .status d
  | .quiet => offer .status d
  | .barred => setFli (fun f => { f with statusTimer := none }) d
  | .off => d

/-- STATUS_PERIOD_TIMER_EXPIRY (R116, R125). -/
def execStatusPeriodTimerExpiry (s : State) : Host.Outcome State Fault Refusal :=
  commit s (onTimer s.dev.fli.statusTimer.isSome statusPeriod s.dev)

/-- QUIET_TIMER_EXPIRY (R127). -/
def execQuietTimerExpiry (s : State) : Host.Outcome State Fault Refusal :=
  commit s (onTimer s.dev.fli.quietTimer.isSome
    (setFli fun f => { f with quietTimer := none, score := 32, line := .active }) s.dev)

/-- R132, R141, R176: peer `o` has fallen silent. -/
def peerSilent (o : Nat) (d : Device) : Device :=
  let d := raise .floor .note .peerSilent o (setPeer o ⟨.silent, none⟩ d)
  setHdu (fun h => { h with table := h.table.map fun e => if e.origin = o then { e with stale := true } else e })
    (peerUndocks o d)

/-- PEER_SILENCE_TIMER_EXPIRY (R132, R141, R176). -/
def execPeerSilenceTimerExpiry (peer : Nat) (s : State) : Host.Outcome State Fault Refusal :=
  commit s (onTimer (peerAt s.dev peer).timer.isSome (peerSilent peer) s.dev)

end Sys2Proof.Machine
end

