-- ==== Sys2Proof/Machine/AssignCmds.lean ====
section
/-! DEFINITION. The meanings of ASU's timers (chapter 8) and of RLU's release delay (chapter 10). -/

namespace Sys2Proof.Machine

/-- CLAIM_TIMER_EXPIRY (R139). -/
def execClaimTimerExpiry (handler : Nat) (s : State) : Host.Outcome State Fault Refusal :=
  commit s (onTimer (entryAt s.dev handler).timer.isSome (fun d =>
    setEntry handler (entryUnclaimed (entryAt d handler)) d) s.dev)

/-- R147, R148: SEEK again in SEEKING; a lost CLAIM again in CLAIMING with the claim-sent mark clear. -/
def seekRepeat (d : Device) : Device :=
  let d := setNeed { d.asu.need with seekTimer := none } d
  match d.asu.need.state, d.asu.need.target with
  | .seeking, _ => offerSeek d
  | .claiming, some h => if d.asu.need.claimSent then d else offerClaim h d
  | _, _ => d

/-- SEEK_REPEAT_TIMER_EXPIRY (R147, R148). -/
def execSeekRepeatTimerExpiry (s : State) : Host.Outcome State Fault Refusal :=
  commit s (onTimer s.dev.asu.need.seekTimer.isSome seekRepeat s.dev)

/-- R149, R150: the claim window expires and the need becomes WON; the park of a wrong docked handler follows
in `settle`. -/
def claimWon (d : Device) : Device :=
  setNeed { d.asu.need with
    state := .won, windowTimer := none, dockWaitTimer := some (minutes (cfg d).dockWait) } d

/-- CLAIM_WINDOW_EXPIRY (R149, R150). -/
def execClaimWindowExpiry (s : State) : Host.Outcome State Fault Refusal :=
  commit s (onTimer (s.dev.asu.need.windowTimer.isSome && s.dev.asu.need.state == .claiming) claimWon s.dev)

/-- R151: the dock wait expires. -/
def dockWaitOver (h : Nat) (d : Device) : Device :=
  let d := raise .floor .note .dockWaitExpired h (releaseWon h d)
  toSeeking (setNeed { d.asu.need with passedOver := some h } d)

/-- DOCK_WAIT_EXPIRY (R151). -/
def execDockWaitExpiry (s : State) : Host.Outcome State Fault Refusal :=
  commit s (onTimer (s.dev.asu.need.dockWaitTimer.isSome && s.dev.asu.need.state == .won) (fun d =>
    match d.asu.need.target with
    | some h => dockWaitOver h d
    | none => d) s.dev)

/-- IDLE_TIMER_EXPIRY (R153). -/
def execIdleTimerExpiry (s : State) : Host.Outcome State Fault Refusal :=
  commit s (onTimer s.dev.asu.idleTimer.isSome (fun d =>
    parkDocked (stopIdle d)) s.dev)

/-- R185: a DELAYED record becomes READY. -/
def delayOver (r : Release) : Release := { r with state := .ready, timer := none }

/-- R185: the record's delay timer runs. -/
def delayRuns (d : Device) (number : Nat) : Bool :=
  (recordNumbered d number).any fun r => r.state == .delayed && r.timer.isSome

/-- DELAY_EXPIRY (R185). -/
def execDelayExpiry (number : Nat) (s : State) : Host.Outcome State Fault Refusal :=
  commit s (onTimer (delayRuns s.dev number) (modifyRecord number delayOver) s.dev)

end Sys2Proof.Machine
end

