-- ==== Sys2Proof/Machine/ResetCmds.lean ====
section
/-! DEFINITION. The meanings of the two resets and of the join clock (R20, R38, R58, R99, R112, R134, R158, R178,
R192, R200, R201, R212), and the frames CTP kept waiting. -/

namespace Sys2Proof.Machine

/-! ## The join clock -/

/-- JOIN_CLOCK_MINUTE (R201): it counts in JOINED, through a warm reset too (log 7). -/
def execJoinClockMinute (s : State) : Host.Outcome State Fault Refusal :=
  commit s (if s.dev.ctp.device = .joined ∧ s.dev.ctp.hold ≠ .powerOn then
    setCtp (fun t => { t with joinClock := satAdd 65535 t.joinClock 1 }) s.dev else s.dev)

/-! ## Power-on reset (R212) -/

/-- POWER_ON_RESET (R201, R212): all state afresh; the outputs already on the lines stay (log 18). -/
def execPowerOnReset (byPin : Bool) (s : State) : Host.Outcome State Fault Refusal :=
  commit s (.powerOn .powerOn
    { s.dev.pins with resetPin := if byPin then .low else s.dev.pins.resetPin } s.dev.lines)

/-- POWER_ON_RESET_END (R114, R212): the straps are read and the device rests in CONFIG. -/
def execPowerOnResetEnd (straps : BitVec 5) (s : State) : Host.Outcome State Fault Refusal :=
  commit s (if s.dev.ctp.hold = .powerOn then
    .powerOn .running { s.dev.pins with straps, resetPin := .high } s.dev.lines else s.dev)

/-! ## The warm reset, block by block -/

/-- R20: what the reset makes of a lot record, its hold set apart. -/
def warmLot (l : Lot) : Lot :=
  if l.opened then
    { l with
      state := .held, resume := some .staging, passStarted := false
      unseen := l.unseen || l.state != .held }
  else if l.state = .staging then { l with state := .queued }
  else l

/-- R20: a RESTART entry is placed on a lot whose insertion is open (R161, R178). -/
def warmSlot (i : Fin 8) (d : Device) : Device :=
  let d := if (lotAt d i).any (·.opened) then storeHold i .restart false d else d
  modifyLot i warmLot d

def warmLots (d : Device) : Device := slots.foldl (fun d i => warmSlot i d) d

/-- R38. -/
def warmTpt (t : Tpt) : Tpt :=
  { t with
    link := .unknown, loaded := 0, load := none, loadBlocked := none, arm := .cleared, armRefused := none
    outstanding := [], silence := none, drain := none, query := none, target := none }

/-- R58. -/
def warmHpt (h : Hpt) : Hpt :=
  { Hpt.reset with pass := h.pass, passHandler := h.passHandler, intake := h.intake }

/-- R134; the line state is kept until the reset ends (log 7). -/
def warmFli (f : Fli) : Fli :=
  { f with
    queue := [], slot := none, score := 0, quietTimer := none, statusTimer := none
    peers := Vector.replicate 32 ⟨.unheard, none⟩, busy := false }

/-- R158. -/
def warmAsu (a : Asu) : Asu := { Asu.reset with table := vmap entryUnknown a.table }

/-- R178. -/
def warmHdu (own : Nat) (h : Hdu) : Hdu :=
  { h with
    table := h.table.map fun e => if e.origin = own then e else { e with stale := true }
    holdsInPlay := [], liftsInPlay := [] }

/-- R192: a DELAYED record's timer restarts at the full release delay. -/
def warmRelease (c : ConfigBlock) (r : Release) : Release :=
  if r.state = .delayed then { r with timer := some (minutes c.releaseDelay) } else r

/-- R200: each block resets as its own chapter gives; in CONFIG nothing else changes. -/
def warmBlocks (d : Device) : Device :=
  match d.ctp.device with
  | .config => d
  | .joined =>
    let d := warmLots d
    { d with
      tpt := warmTpt d.tpt, hpt := warmHpt d.hpt, tpm := Tpm.reset, fli := warmFli d.fli
      asu := warmAsu d.asu, hdu := warmHdu (ownStation d) d.hdu
      rlu := { d.rlu with records := d.rlu.records.map (warmRelease (cfg d)) } }

/-- R200: the warm reset begins: waiting frames are discarded, the blocks reset. One by the pin also stands for the
one that a RESTART answered before it has asked for (log 45). -/
def beginWarm (byPin : Bool) (d : Device) : Device :=
  let d := setCtp (fun t => { t with hold := .warm, waiting := [], restartPending := false }) d
  warmBlocks { d with pins := { d.pins with resetPin := if byPin then .middle else d.pins.resetPin } }

/-- R212, R114, R135: the pin moves from low to middle: the power-on reset ends, the straps are read at that end,
and a warm reset that changes nothing begins. -/
def lowToMiddle (straps : BitVec 5) (d : Device) : Device :=
  .powerOn .warm { d.pins with straps, resetPin := .middle } d.lines

/-- WARM_RESET (R200, R212): by the pin, or by RESTART after its response (log 8). -/
def execWarmReset (byPin : Option (BitVec 5)) (s : State) : Host.Outcome State Fault Refusal :=
  commit s (match s.dev.ctp.hold with
    | .powerOn => match byPin with
      | some straps => lowToMiddle straps s.dev
      | none => s.dev
    | .warm => if byPin.isSome then { s.dev with pins := { s.dev.pins with resetPin := .middle } } else s.dev
    | .running =>
      if byPin.isSome || s.dev.ctp.restartPending then beginWarm byPin.isSome s.dev else s.dev)

/-! ## Frames taken after the reset -/

/-- What a waiting frame's command does when it is taken. -/
def takenFrame : Instr → Device → Device
  | .configure fields => configureRequest fields
  | .join => joinRequest
  | .restart => restartRequest
  | .statusRequest => statusRequestTaken
  | .read table slot first count => readRequest table slot first count
  | .retry => retryRequest
  | .admitLot lotId product kit cls qty planCount plan => admitRequest lotId product kit cls qty planCount plan
  | .withdraw lotId => withdrawRequest lotId
  | .dispose lotId reason flags detail tag disposition =>
    disposeRequest lotId reason flags detail tag disposition
  | .placeHold lotId note => placeHoldRequest lotId note
  | .placeFloorHold program reason => placeFloorHoldRequest program reason
  | .liftFloor tag => liftFloorRequest tag
  | .override origin tag => overrideRequest origin tag
  | .clearSticky lotId => clearStickyRequest lotId
  | .clearFault b => clearFaultRequest b
  | .setGrade handler => setGradeRequest handler
  | .collect number => collectRequest number
  | .disposeRelease number disposition => disposeReleaseRequest number disposition
  | .badFrame crcPassed code => badFrameTaken crcPassed code
  | _ => id

/-- R195, R200: the frames that waited are taken in arrival order. -/
def takeFrames (frames : List Instr) (d : Device) : Device :=
  frames.foldl (fun d i => onFrame i (takenFrame i) (refreshPins d)) d

/-- R38, R58, R134, R192, R20: what each block does when the warm reset ends. -/
def resumeBlocks (d : Device) : Device :=
  match d.ctp.device with
  | .config => d
  | .joined =>
    let silence : Timer := if anyOpen d then some Config.silenceMs else none
    let d := setTpt (fun t => { t with silence }) d
    settle (offerAllReview (sendHandler .query (sendTester .query (enterListen d))))

/-- WARM_RESET_END (R200, R212). -/
def execWarmResetEnd (s : State) : Host.Outcome State Fault Refusal :=
  commit s (if s.dev.ctp.hold = .warm then
    let d := setCtp (fun t => { t with hold := .running, waiting := [] }) s.dev
    takeFrames s.dev.ctp.waiting (resumeBlocks { d with pins := { d.pins with resetPin := .high } })
  else s.dev)

end Sys2Proof.Machine
end

