-- ==== Sys2Proof/Machine/Frames.lean ====
section
/-! DEFINITION. The frames of the four lines (R209): the CRC, the frames the device sends, and the command
that a received byte frame is (12.3 to 12.5, R114, R115, R122, R194). The receive checks that belong to the
frame itself are made here; the ranges of fields are judged by the command's meaning. -/

namespace Sys2Proof.Machine

/-! ## The CRC (R209) -/

/-- One bit of the generator x^16 + x^15 + x^2 + 1, without reflection. -/
def crcBit (r : BitVec 16) (b : Bool) : BitVec 16 :=
  if r.msb ^^ b then (r <<< 1) ^^^ 0x8005#16 else r <<< 1

/-- The bits of a byte, most significant first. -/
def byteBits (b : Byte) : List Bool :=
  [ b.getLsbD 7, b.getLsbD 6, b.getLsbD 5, b.getLsbD 4, b.getLsbD 3, b.getLsbD 2, b.getLsbD 1, b.getLsbD 0 ]

def crcByte (r : BitVec 16) (b : Byte) : BitVec 16 := (byteBits b).foldl crcBit r

/-- The register over bytes in sending order, starting at all ones, not inverted at the end. -/
def crc (bytes : List Byte) : BitVec 16 := bytes.foldl crcByte 0xFFFF#16

/-- The CRC is sent high byte first. -/
def crcBytes (r : BitVec 16) : List Byte := [r.extractLsb' 8 8, r.extractLsb' 0 8]

/-- Header and payload closed by their CRC. -/
def closeFrame (body : List Byte) : List Byte := body ++ crcBytes (crc body)

/-- A frame passes when the register over the whole frame ends at 0. -/
def framePasses (frame : List Byte) : Bool := crc frame == 0

/-! ## Frames sent -/

/-- Tester and handler line: kind, payload length, payload. -/
def messageFrame (kind : Nat) (payload : List Byte) : List Byte :=
  closeFrame (byte1 kind ++ byte1 payload.length ++ payload)

/-- Messages to the tester (12.3). -/
def testerFrame : TesterOut → List Byte
  | .load p => messageFrame 1 (be 2 p)
  | .arm lot ins p m => messageFrame 2 (be 4 lot ++ byte1 ins ++ be 2 p ++ [m])
  | .mask m => messageFrame 3 [m]
  | .halt => messageFrame 4 []
  | .query => messageFrame 5 []

/-- Messages to the handler (12.3). -/
def handlerFrame : HandlerOut → List Byte
  | .query => messageFrame 48 []
  | .setpoint c => messageFrame 49 (byte1 (tempCode c))
  | .kit k => messageFrame 50 (byte1 k)
  | .startPass p n => messageFrame 51 (byte1 p ++ be 3 n)
  | .undock => messageFrame 52 []

/-- A response (R209, R196). -/
def responseFrame (r : Response) : List Byte :=
  closeFrame (byte1 r.request ++ byte1 (responseNumber r.code) ++ be 2 r.payload.length ++ r.payload)

/-- HOLD and LIFT payloads (12.4). -/
def holdPayload (program tag reason : Nat) : List Byte :=
  byte1 (program / 16) ++ byte1 (program % 16 * 16 + reason) ++ byte1 tag

def statusPayload (c : StatusField) : List Byte :=
  byte1 c.cellState ++ byte1 c.queued ++ byte1 c.handler ++ byte1 c.kit ++ byte1 c.grade ++
  byte1 c.parked.length ++ c.parked.flatMap (fun h => byte1 h.handler ++ byte1 h.kit ++ byte1 h.grade) ++
  byte1 c.holds.length ++ c.holds.flatMap (fun h => holdPayload h.program h.tag h.reason)

def bulletinPayload (m : FloorOut) : List Byte :=
  match m.bulletin with
  | .hold p t r => holdPayload p t r
  | .lift p t => holdPayload p t 0
  | .claim h k p => byte1 h ++ byte1 k ++ byte1 p
  | .dock h k g => byte1 h ++ byte1 k ++ byte1 (gradeCode g)
  | .park h k g => byte1 h ++ byte1 k ++ byte1 (gradeCode g)
  | .seek k p => byte1 k ++ byte1 p
  | .status => m.content.elim [] statusPayload

/-- The header of a bulletin: kind in bits 15 to 12, origin in 11 to 7, payload length in 6 to 0 (R209). -/
def bulletinHeader (kind origin length : Nat) : Nat := kind * 4096 + origin * 128 + length

/-- A bulletin of station `own`. -/
def bulletinFrame (own : Nat) (m : FloorOut) : List Byte :=
  let p := bulletinPayload m
  closeFrame (be 2 (bulletinHeader (kindCode m.bulletin) own p.length) ++ p)

/-! ## Reading numbers -/

/-- The number of the bytes, most significant first. -/
def num (bs : List Byte) : Nat := bs.foldl (fun n b => n * 256 + b.toNat) 0

/-- `n` bytes from position `i` as a number. -/
def numAt (bs : List Byte) (i n : Nat) : Nat := num ((bs.drop i).take n)

/-- The bytes without the last two. -/
def bodyOf (frame : List Byte) : List Byte := frame.take (frame.length - 2)

/-! ## The tester line received (R22, 12.3) -/

/-- The (site, bin) pairs of TOUCHDOWN entry bytes. -/
def entriesOf (bs : List Byte) : List (Nat × Nat) := bs.map fun b => (b.toNat / 16, b.toNat % 16)

/-- The command of a tester message by kind and payload; none where the kind or its length is wrong. -/
def testerCommand (kind : Nat) (p : List Byte) : Option Instr :=
  match kind, p.length with
  | 16, 2 => some (.loaded (num p))
  | 17, 1 => some (.loadFail (num p))
  | 18, 0 => some .armed
  | 19, 1 => some (.armFail (num p))
  | 20, _ => some (.touchdown (numAt p 0 1) (numAt p 1 1) (entriesOf (p.drop 2)))
  | 21, 0 => some .maskOk
  | 22, 0 => some .idle
  | 23, 0 => some .down
  | 24, 2 => some (.up (num p))
  | _, _ => none

/-- R209: the CRC passes and the payload received has its declared length. -/
def messagePasses (frame : List Byte) : Bool :=
  framePasses frame && frame.length == numAt frame 1 1 + 4

/-- The command a frame on the tester line is. -/
def testerReceived (frame : List Byte) : Instr :=
  if messagePasses frame then
    (testerCommand (numAt frame 0 1) ((bodyOf frame).drop 2)).getD (.testerBadMessage true)
  else .testerBadMessage false

/-! ## The handler line received (R40, 12.3) -/

/-- The command of a handler message by kind and payload. -/
def handlerCommand (kind : Nat) (p : List Byte) : Option Instr :=
  match kind, p.length with
  | 32, 2 => some (.hello (numAt p 0 1) (numAt p 1 1))
  | 33, 1 => some (.state (num p))
  | 34, 1 => some (.soaked (num p))
  | 35, 1 => some (.soakFail (num p))
  | 36, 1 => some (.kitDone (num p))
  | 37, 1 => some (.kitFail (num p))
  | 38, 2 => some (.index (num p % 32768) (32768 ≤ num p))
  | 39, 1 => some (.unitLost (num p))
  | 40, 4 => some (.passEnd (numAt p 0 1) (numAt p 1 3))
  | 41, 0 => some .bye
  | _, _ => none

/-- The command a frame on the handler line is. A frame that fails its check, or passes it with no kind or another
length, carries no handler ID, a HELLO among them (log 41). -/
def handlerReceived (frame : List Byte) : Instr :=
  if messagePasses frame then
    (handlerCommand (numAt frame 0 1) ((bodyOf frame).drop 2)).getD (.handlerBadMessage true none)
  else .handlerBadMessage false none

/-! ## The floor line received (R114, R115, R122, 12.4) -/

/-- `n` handler fields of 3 bytes. -/
def handlerFields : Nat → List Byte → List HandlerField
  | 0, _ => []
  | n + 1, bs => ⟨numAt bs 0 1, numAt bs 1 1, numAt bs 2 1⟩ :: handlerFields n (bs.drop 3)

/-- A hold field of 3 bytes. -/
def holdFieldOf (bs : List Byte) : HoldField :=
  ⟨numAt bs 0 1 * 16 + numAt bs 1 1 / 16, numAt bs 2 1, numAt bs 1 1 % 16⟩

def holdFields : Nat → List Byte → List HoldField
  | 0, _ => []
  | n + 1, bs => holdFieldOf bs :: holdFields n (bs.drop 3)

/-- A STATUS payload; none where its length differs from 7 + 3p + 3f. -/
def statusOf (p : List Byte) : Option StatusField :=
  let np := numAt p 5 1
  let nh := numAt p (6 + 3 * np) 1
  if p.length = 7 + 3 * np + 3 * nh then
    some ⟨numAt p 0 1, numAt p 1 1, numAt p 2 1, numAt p 3 1, numAt p 4 1,
      handlerFields np (p.drop 6), holdFields nh (p.drop (7 + 3 * np))⟩
  else none

/-- The command of a bulletin by kind, origin and payload; none where the kind or its length is wrong. -/
def bulletinCommand (kind origin : Nat) (p : List Byte) : Option Instr :=
  let h := holdFieldOf p
  match kind, p.length with
  | 1, 3 => some (.holdReceived origin h.program h.tag h.reason)
  | 2, 3 => some (.liftReceived origin h.program h.tag h.reason)
  | 3, 3 => some (.claimReceived origin (numAt p 0 1) (numAt p 1 1) (numAt p 2 1))
  | 4, 3 => some (.dockReceived origin (numAt p 0 1) (numAt p 1 1) (numAt p 2 1))
  | 5, 3 => some (.parkReceived origin (numAt p 0 1) (numAt p 1 1) (numAt p 2 1))
  | 6, 2 => some (.seekReceived origin (numAt p 0 1) (numAt p 1 1))
  | 7, _ => (statusOf p).map (.statusReceived origin)
  | _, _ => none

/-- R122: CRC, declared length of at most 48, and the frame's end where its length declares it. -/
def bulletinPasses (frame : List Byte) : Bool :=
  framePasses frame && numAt frame 0 2 % 128 ≤ 48 && frame.length == numAt frame 0 2 % 128 + 4

/-- The command a frame on the floor line is, where this station did not send it. -/
def floorReceived (frame : List Byte) : Instr :=
  let h := numAt frame 0 2
  if bulletinPasses frame then
    (bulletinCommand (h / 4096) (h / 128 % 32) ((bodyOf frame).drop 2)).getD .floorFrameDropped
  else .floorFrameDropped

/-! ## The cell terminal received (R194, 12.5) -/

/-- `n` configuration fields of 3 bytes. -/
def cfgFields : Nat → List Byte → List CfgField
  | 0, _ => []
  | n + 1, bs => ⟨numAt bs 0 1, numAt bs 1 2⟩ :: cfgFields n (bs.drop 3)

/-- `n` plan entries of 4 bytes. -/
def planFields : Nat → List Byte → List PlanField
  | 0, _ => []
  | n + 1, bs => ⟨numAt bs 0 2, numAt bs 2 1, numAt bs 3 1⟩ :: planFields n (bs.drop 4)

/-- The command of a request by code and payload; none where the code or its length is wrong. -/
def requestCommand (code : Nat) (p : List Byte) : Option Instr :=
  match code, p.length with
  | 1, 162 => some (.configure (cfgFields 54 p))
  | 2, 0 => some .join
  | 3, 0 => some .restart
  | 4, 0 => some .statusRequest
  | 5, 4 => some (.read (numAt p 0 1) (numAt p 1 1) (numAt p 2 1) (numAt p 3 1))
  | 6, 0 => some .retry
  | 7, 29 => some (.admitLot (numAt p 0 4) (numAt p 4 2) (numAt p 6 1) (numAt p 7 1) (numAt p 8 4) (numAt p 12 1)
      (planFields 4 (p.drop 13)))
  | 8, 4 => some (.withdraw (num p))
  | 9, 9 => some (.dispose (numAt p 0 4) (numAt p 4 1) (numAt p 5 1) (numAt p 6 1) (numAt p 7 1) (numAt p 8 1))
  | 10, 5 => some (.placeHold (numAt p 0 4) (numAt p 4 1))
  | 11, 3 => some (.placeFloorHold (numAt p 0 2) (numAt p 2 1))
  | 12, 1 => some (.liftFloor (num p))
  | 13, 4 => some (.clearSticky (num p))
  | 14, 1 => some (.clearFault (num p))
  | 15, 1 => some (.setGrade (num p))
  | 16, 2 => some (.collect (num p))
  | 17, 3 => some (.disposeRelease (numAt p 0 2) (numAt p 2 1))
  | 18, 2 => some (.override (numAt p 0 1) (numAt p 1 1))
  | _, _ => none

/-- The command a frame on the cell terminal line is (R194): BAD_FRAME with code 0 where the CRC fails. -/
def requestReceived (frame : List Byte) : Instr :=
  if framePasses frame then
    let p := (bodyOf frame).drop 3
    if p.length = numAt frame 1 2 then
      (requestCommand (numAt frame 0 1) p).getD (.badFrame true (numAt frame 0 1))
    else .badFrame true (numAt frame 0 1)
  else .badFrame false 0

end Sys2Proof.Machine
end

