-- ==== Sys2Proof/Machine/Dispatch.lean ====
section
/-! DEFINITION. The dispatch: one arm per command, each a direct call of the command's meaning. -/

namespace Sys2Proof.Machine

/-- A command's effect on everything but the queue. -/
def exec (i : Instr) (s : State) : Host.Outcome State Fault Refusal :=
  match i with
  | .configure fields => Sys2Proof.Machine.execConfigure fields s
  | .join => Sys2Proof.Machine.execJoin s
  | .restart => Sys2Proof.Machine.execRestart s
  | .statusRequest => Sys2Proof.Machine.execStatusRequest s
  | .read table slot first count => Sys2Proof.Machine.execRead table slot first count s
  | .retry => Sys2Proof.Machine.execRetry s
  | .admitLot lotId product kit cls qty planCount plan => Sys2Proof.Machine.execAdmit lotId product kit cls qty planCount plan s
  | .withdraw lotId => Sys2Proof.Machine.execWithdraw lotId s
  | .dispose lotId reason flags detail tag disposition => Sys2Proof.Machine.execDispose lotId reason flags detail tag disposition s
  | .placeHold lotId note => Sys2Proof.Machine.execPlaceHold lotId note s
  | .placeFloorHold program reason => Sys2Proof.Machine.execPlaceFloorHold program reason s
  | .liftFloor tag => Sys2Proof.Machine.execLiftFloor tag s
  | .override origin tag => Sys2Proof.Machine.execOverride origin tag s
  | .clearSticky lotId => Sys2Proof.Machine.execClearSticky lotId s
  | .clearFault bank => Sys2Proof.Machine.execClearFault bank s
  | .setGrade handler => Sys2Proof.Machine.execSetGrade handler s
  | .collect number => Sys2Proof.Machine.execCollect number s
  | .disposeRelease number disposition => Sys2Proof.Machine.execDisposeRelease number disposition s
  | .badFrame crcPassed code => Sys2Proof.Machine.execBadFrame crcPassed code s
  | .requestFrameDiscarded => Sys2Proof.Machine.execRequestFrameDiscarded s
  | .loaded program => Sys2Proof.Machine.execLoaded program s
  | .loadFail code => Sys2Proof.Machine.execLoadFail code s
  | .armed => Sys2Proof.Machine.execArmed s
  | .armFail code => Sys2Proof.Machine.execArmFail code s
  | .touchdown repeats entryCount entries => Sys2Proof.Machine.execTouchdown repeats entryCount entries s
  | .maskOk => Sys2Proof.Machine.execMaskOk s
  | .idle => Sys2Proof.Machine.execIdle s
  | .down => Sys2Proof.Machine.execDown s
  | .up program => Sys2Proof.Machine.execUp program s
  | .testerBadMessage framePassed => Sys2Proof.Machine.execTesterBadMessage framePassed s
  | .silenceTimerExpiry => Sys2Proof.Machine.execSilenceTimerExpiry s
  | .loadTimerExpiry => Sys2Proof.Machine.execLoadTimerExpiry s
  | .drainTimerExpiry => Sys2Proof.Machine.execDrainTimerExpiry s
  | .testerQueryTimer => Sys2Proof.Machine.execTesterQueryTimer s
  | .hello handler kit => Sys2Proof.Machine.execHello handler kit s
  | .state temp => Sys2Proof.Machine.execState temp s
  | .soaked temp => Sys2Proof.Machine.execSoaked temp s
  | .soakFail code => Sys2Proof.Machine.execSoakFail code s
  | .kitDone kit => Sys2Proof.Machine.execKitDone kit s
  | .kitFail code => Sys2Proof.Machine.execKitFail code s
  | .index interval continued => Sys2Proof.Machine.execIndex interval continued s
  | .unitLost site => Sys2Proof.Machine.execUnitLost site s
  | .passEnd pass fed => Sys2Proof.Machine.execPassEnd pass fed s
  | .bye => Sys2Proof.Machine.execBye s
  | .handlerBadMessage framePassed carried => Sys2Proof.Machine.execHandlerBadMessage framePassed carried s
  | .absenceTimerExpiry => Sys2Proof.Machine.execAbsenceTimerExpiry s
  | .leavingTimerExpiry => Sys2Proof.Machine.execLeavingTimerExpiry s
  | .soakTimerExpiry => Sys2Proof.Machine.execSoakTimerExpiry s
  | .kitChangeTimerExpiry => Sys2Proof.Machine.execKitChangeTimerExpiry s
  | .handlerQueryTimer => Sys2Proof.Machine.execHandlerQueryTimer s
  | .readyChange level => Sys2Proof.Machine.execReadyChange level s
  | .periodEnd => Sys2Proof.Machine.execPeriodEnd s
  | .runTimeSecond ms => Sys2Proof.Machine.execRunTimeSecond ms s
  | .holdReceived origin program tag reason => Sys2Proof.Machine.execHoldReceived origin program tag reason s
  | .liftReceived origin program tag reason => Sys2Proof.Machine.execLiftReceived origin program tag reason s
  | .claimReceived origin handler kit cls => Sys2Proof.Machine.execClaimReceived origin handler kit cls s
  | .dockReceived origin handler kit grade => Sys2Proof.Machine.execDockReceived origin handler kit grade s
  | .parkReceived origin handler kit grade => Sys2Proof.Machine.execParkReceived origin handler kit grade s
  | .seekReceived origin kit cls => Sys2Proof.Machine.execSeekReceived origin kit cls s
  | .statusReceived origin content => Sys2Proof.Machine.execStatusReceived origin content s
  | .duplicateStation => Sys2Proof.Machine.execDuplicateStation s
  | .floorFrameDropped => Sys2Proof.Machine.execFloorFrameDropped s
  | .lineBusy => Sys2Proof.Machine.execLineBusy s
  | .attemptBegin => Sys2Proof.Machine.execAttemptBegin s
  | .arbitrationLost => Sys2Proof.Machine.execArbitrationLost s
  | .bulletinSent => Sys2Proof.Machine.execBulletinSent s
  | .transmitError => Sys2Proof.Machine.execTransmitError s
  | .statusPeriodTimerExpiry => Sys2Proof.Machine.execStatusPeriodTimerExpiry s
  | .quietTimerExpiry => Sys2Proof.Machine.execQuietTimerExpiry s
  | .peerSilenceTimerExpiry peer => Sys2Proof.Machine.execPeerSilenceTimerExpiry peer s
  | .claimTimerExpiry handler => Sys2Proof.Machine.execClaimTimerExpiry handler s
  | .seekRepeatTimerExpiry => Sys2Proof.Machine.execSeekRepeatTimerExpiry s
  | .claimWindowExpiry => Sys2Proof.Machine.execClaimWindowExpiry s
  | .dockWaitExpiry => Sys2Proof.Machine.execDockWaitExpiry s
  | .idleTimerExpiry => Sys2Proof.Machine.execIdleTimerExpiry s
  | .delayExpiry number => Sys2Proof.Machine.execDelayExpiry number s
  | .powerOnReset byPin => Sys2Proof.Machine.execPowerOnReset byPin s
  | .powerOnResetEnd straps => Sys2Proof.Machine.execPowerOnResetEnd straps s
  | .warmReset byPin => Sys2Proof.Machine.execWarmReset byPin s
  | .warmResetEnd => Sys2Proof.Machine.execWarmResetEnd s
  | .joinClockMinute => Sys2Proof.Machine.execJoinClockMinute s

end Sys2Proof.Machine
end

