-- ==== Sys2Proof/Machine/Tick.lean ====
section
/-! DEFINITION. One millisecond of the running timers, which a step on an empty queue lets pass (DESIGN CHOICE,
log 2). -/

namespace Sys2Proof.Machine

/-- One millisecond of TPT's timers. -/
def tickTpt (t : Tpt) : Tpt :=
  { t with
    load := t.load.map fun l => { l with timer := l.timer - 1 }
    silence := tickTimer t.silence, drain := tickTimer t.drain, query := tickTimer t.query }

/-- One millisecond of HPT's timers. -/
def tickHpt (h : Hpt) : Hpt :=
  { h with
    absence := tickTimer h.absence, leaving := tickTimer h.leaving, query := tickTimer h.query
    soak := h.soak.map fun k => { k with timer := k.timer - 1 }
    kitChange := h.kitChange.map fun k => { k with timer := k.timer - 1 } }

/-- One millisecond of FLI's timers. -/
def tickFli (f : Fli) : Fli :=
  { f with
    statusTimer := tickTimer f.statusTimer, quietTimer := tickTimer f.quietTimer
    peers := vmap (fun p => { p with timer := tickTimer p.timer }) f.peers }

/-- One millisecond of ASU's timers. -/
def tickAsu (a : Asu) : Asu :=
  { a with
    table := vmap (fun e => { e with timer := tickTimer e.timer }) a.table
    idleTimer := tickTimer a.idleTimer
    need := { a.need with
      seekTimer := tickTimer a.need.seekTimer
      windowTimer := tickTimer a.need.windowTimer
      dockWaitTimer := tickTimer a.need.dockWaitTimer } }

/-- One millisecond of RLU's delay timers. -/
def tickRlu (r : Rlu) : Rlu :=
  { r with records := r.records.map fun x => { x with timer := tickTimer x.timer } }

/-- One millisecond of every running timer, and at TPM of the sample period with gate-on and run time (R102, R111).
No timer expires here: each expiry is a command (log 3). -/
def tick (d : Device) : Device :=
  if live d then
    elapse 1 { d with
      tpt := tickTpt d.tpt, hpt := tickHpt d.hpt, fli := tickFli d.fli, asu := tickAsu d.asu
      rlu := tickRlu d.rlu }
  else d

end Sys2Proof.Machine
end

