-- ==== Sys2Proof/Safety.lean ====
section
/-! DEFINITION. What counts as a sound device, in the terms the claims use: the pins follow their rules (R55, R56,
R208), the accounts balance (R61, R70, R181), a lot is HELD exactly when something holds it (R9), the transmit
queue is in order and in bounds (R129), the locked device state (R197) and the standing of an UNCORRECTED
record (R207). -/

namespace Sys2Proof.Machine

/-! ## Pins -/

/-- FEED, ATTN and effective run are what R55, R208 and R56 make of the device as it stands. -/
def PinsFollow (d : Device) : Prop :=
  d.pins.feed = feedGate d ∧ d.pins.attn = attnLevel d ∧ d.hpt.effRun = runLevel d d.pins.feed

/-! ## Accounts -/

/-- R61: the sum of FINAL, pending_now, pending_next and unretested equals T1, which is in its 20 bits. -/
def Balanced (a : Accum) : Prop :=
  finalSum a (fun _ => true) + a.pendingNow + a.pendingNext + a.unretested = a.t1 ∧ a.t1 ≤ Config.countTop

/-- R70: good + reject + missing equals Q_in plus excess. -/
def CloseBalances (m : CloseSummary) : Prop := m.good + m.reject + m.missing = m.qIn + m.excess

/-- R181: the two identities of a release record. -/
def RecordBalances (r : Release) : Prop :=
  r.good + r.reject + r.missing = r.qLast + r.excess ∧ (r.qFirst : Int) = (r.qLast : Int) + r.attrition

/-- A lot's accumulator set balances, and so does its close summary where it has one. -/
def LotBalances (l : Lot) : Prop := Balanced l.acc ∧ ∀ m, l.summary = some m → CloseBalances m

/-- Every lot in the table and every record in the release queue balances. -/
def AccountsBalance (d : Device) : Prop :=
  (∀ i l, lotAt d i = some l → LotBalances l) ∧ ∀ r ∈ d.rlu.records, RecordBalances r

/-! ## Holds -/

/-- R9: a lot is in HELD exactly when its hold set is non-empty or its overflow mark is set. -/
def HeldIffHolds (d : Device) : Prop :=
  ∀ i l, lotAt d i = some l → (l.state = .held ↔ holdsLot l = true)

/-! ## The transmit queue -/

/-- R129: entries ordered by kind code, within a kind by age. -/
def InQueueOrder (q : List QEntry) : Prop := q.Pairwise fun a b => goesBefore a b = true

/-- R129: each entry carries an age that has been given, no two the same, and the slot's is not a queued entry's. -/
def AgesSound (f : Fli) : Prop :=
  (∀ e ∈ f.queue, e.age < f.nextAge) ∧ (f.queue.map (·.age)).Nodup ∧
  ∀ sl, f.slot = some sl → sl.age < f.nextAge ∧ ∀ e ∈ f.queue, e.age ≠ sl.age

/-- R129: the queue is in order, its ages are sound, and the 12 places suffice. -/
def QueueSound (f : Fli) : Prop := InQueueOrder f.queue ∧ AgesSound f ∧ placesTaken f ≤ 12

/-! ## The hold sets -/

/-- R161: at most 6 entries and no key twice. -/
def HoldSetSound (l : Lot) : Prop := l.holds.length ≤ 6 ∧ (l.holds.map (·.key)).Nodup

/-- Every lot's hold set is sound. -/
def HoldSetsSound (d : Device) : Prop := ∀ i l, lotAt d i = some l → HoldSetSound l

/-! ## One open insertion, one staging lot -/

/-- The lot has the cell: its insertion is open or it is in STAGING (R7). -/
def HasCell (l : Lot) : Prop := l.opened = true ∨ l.state = .staging

/-- The lot's place in its insertion is one that only an open insertion has (1.4, R9, R13). -/
def MidInsertion (l : Lot) : Prop :=
  l.state = .running ∨ l.state = .retest ∨ l.state = .closing ∨
  (l.state = .held ∧ ∃ r, l.resume = some r ∧ r ≠ .queued ∧ r ≠ .review)

/-- R7: at most one lot has the cell, so at most one has an open insertion and at most one is in STAGING; and a lot
in the middle of an insertion has it open. -/
def OneCell (d : Device) : Prop :=
  (∀ i j l m, lotAt d i = some l → lotAt d j = some m → HasCell l → HasCell m → i = j) ∧
  ∀ i l, lotAt d i = some l → MidInsertion l → l.opened = true

/-! ## The line error score -/

/-- R126: the score is at most 71, and at most 63 but in QUIET and BARRED between attempts; an attempt runs on a live
line past LISTEN only (R118, R125). -/
def ScoreSound (d : Device) : Prop :=
  d.fli.score ≤ 71 ∧
  (64 ≤ d.fli.score → d.fli.slot = none ∧ (d.fli.line = .quiet ∨ d.fli.line = .barred) ∧ live d = true) ∧
  (d.fli.slot ≠ none → live d = true ∧ d.fli.line ≠ .off ∧ d.fli.line ≠ .listen)

/-! ## The own parked list -/

/-- R143: at most 4 handlers, none twice, each FREE with parked-by the own station; and the handlers that could
join, the one of the dock record and the need's target, are handlers of the table (R136). -/
def ParkedSound (d : Device) : Prop :=
  d.asu.parked.length ≤ 4 ∧ d.asu.parked.Nodup ∧
  (∀ h ∈ d.asu.parked, (entryAt d h).state = .free ∧ (entryAt d h).parkedBy = some (ownStation d)) ∧
  (∀ h, d.hpt.handler = some h → isHandler h = true) ∧ ∀ h, d.asu.need.target = some h → isHandler h = true

/-! ## Settling -/

/-- What the checks of an event's end leave of a lot record: its identity, plan, quantities, hold set, marks of
the accounts, close summary and run time. -/
def LotKept (l m : Lot) : Prop :=
  m.id = l.id ∧ m.product = l.product ∧ m.kit = l.kit ∧ m.cls = l.cls ∧ m.seq = l.seq ∧ m.plan = l.plan ∧
  m.cur = l.cur ∧ m.qIn = l.qIn ∧ m.qFirst = l.qFirst ∧ m.completed = l.completed ∧
  m.closeOnContinue = l.closeOnContinue ∧ m.releaseWaitNoted = l.releaseWaitNoted ∧ m.unseen = l.unseen ∧
  m.holdCount = l.holdCount ∧ m.runTime = l.runTime ∧ m.marks = l.marks ∧ m.summary = l.summary ∧
  m.holds = l.holds ∧ m.overflow = l.overflow ∧
  (l.state ≠ .queued → l.state ≠ .staging → m = l)

/-- What the checks leave of the device: the frame that every command's end shares. -/
structure SettleFrame (d e : Device) : Prop where
  ctp : e.ctp = { d.ctp with floorBank := e.ctp.floorBank }
  sequence : e.lmg.sequence = d.lmg.sequence
  lots : ∀ i, (lotAt d i = none ∧ lotAt e i = none) ∨
    ∃ l m, lotAt d i = some l ∧ lotAt e i = some m ∧ LotKept l m
  hdu : e.hdu = d.hdu
  rlu : e.rlu = d.rlu
  fli : e.fli = { d.fli with queue := e.fli.queue, slot := e.fli.slot, nextAge := e.fli.nextAge }
  straps : e.pins = { d.pins with feed := e.pins.feed }
  floorOut : e.lines.floorOut = d.lines.floorOut
  terminalOut : e.lines.terminalOut = d.lines.terminalOut

/-! ## Requests -/

/-- A request frame that completes is taken at once: no reset is held and no RESTART is due (R195, R200). -/
def Served (d : Device) : Prop := d.ctp.hold = .running ∧ d.ctp.restartPending = false

/-- Requests are taken at once and reach their owners (R197). -/
def Serving (d : Device) : Prop := Served d ∧ d.ctp.device = .joined

/-- R197: the requests that go to an owner in JOINED alone, with their request codes (12.5). -/
def ownedRequest : Instr → Option Nat
  | .restart => some 3
  | .read .. => some 5
  | .retry => some 6
  | .admitLot .. => some 7
  | .withdraw _ => some 8
  | .dispose .. => some 9
  | .placeHold .. => some 10
  | .placeFloorHold .. => some 11
  | .liftFloor _ => some 12
  | .clearSticky _ => some 13
  | .clearFault _ => some 14
  | .setGrade _ => some 15
  | .collect _ => some 16
  | .disposeRelease .. => some 17
  | .override .. => some 18
  | _ => none

/-- The commands that are request frames completing, the failing ones among them. -/
def isRequestFrame : Instr → Bool
  | .configure _ => true
  | .join => true
  | .statusRequest => true
  | .badFrame .. => true
  | c => (ownedRequest c).isSome

/-! ## What only a few commands change -/

/-- The commands of a power-on reset (R212): the two that begin or end one, and the RESET pin's middle level,
which ends one. -/
def touchesPowerOn : Instr → Bool
  | .powerOnReset _ => true
  | .powerOnResetEnd _ => true
  | .warmReset _ => true
  | _ => false

/-- The commands of the tester, handler and floor lines and of the timers (READY, the requests, the resets and the
join clock apart). -/
def lineOrTimerEvent : Instr → Bool
  | .readyChange _ => false
  | .powerOnReset _ => false
  | .powerOnResetEnd _ => false
  | .warmReset _ => false
  | .warmResetEnd => false
  | .joinClockMinute => false
  | .requestFrameDiscarded => false
  | c => !isRequestFrame c

/-- The bank of this name holds a record of severity UNCORRECTED (R207). -/
def uncorrectedIn (d : Device) (n : BankName) : Prop := bankUncorrected (bank d n) = true

end Sys2Proof.Machine
end

