-- ==== Sys2Proof/WellFormed.lean ====
section
/-! DEFINITION. Which commands can be spelled on their line: every field fits its place in the frame
(12.3 to 12.5). Fields in a frame can still be out of the range their rule gives; that is judged by the
command's meaning. -/

namespace Sys2Proof

/-- fits one byte -/
def fits1 (n : Nat) : Bool := n < 2 ^ 8
/-- fits two bytes -/
def fits2 (n : Nat) : Bool := n < 2 ^ 16
/-- fits three bytes -/
def fits3 (n : Nat) : Bool := n < 2 ^ 24
/-- fits four bytes -/
def fits4 (n : Nat) : Bool := n < 2 ^ 32
/-- a station number in the five bits of a bulletin header (R209) -/
def fitsStation (n : Nat) : Bool := n < 32

def PlanField.wf (p : PlanField) : Bool := fits2 p.program && fits1 p.temp && fits1 p.retests

def CfgField.wf (f : CfgField) : Bool := fits1 f.marker && fits2 f.value

def HandlerField.wf (h : HandlerField) : Bool := fits1 h.handler && fits1 h.kit && fits1 h.grade

/-- 12.4: a HOLD payload has 12 bits of program, 4 of reason and 8 of tag. -/
def HoldField.wf (h : HoldField) : Bool := h.program < 4096 && fits1 h.tag && h.reason < 16

/-- 12.4: every count and field is one byte, and the payload is at most 48 bytes (R114). -/
def StatusField.wf (c : StatusField) : Bool :=
  fits1 c.cellState && fits1 c.queued && fits1 c.handler && fits1 c.kit && fits1 c.grade &&
  c.parked.all HandlerField.wf && c.holds.all HoldField.wf &&
  7 + 3 * c.parked.length + 3 * c.holds.length ≤ 48

namespace Instr

/-- The command can be spelled: each field fits the place 12.3 to 12.5 give it. -/
def wellFormed : Instr → Bool
  | .configure fields => fields.length == 54 && fields.all CfgField.wf
  | .join => true
  | .restart => true
  | .statusRequest => true
  | .read table slot first count => fits1 table && fits1 slot && fits1 first && fits1 count
  | .retry => true
  | .admitLot lotId product kit cls qty planCount plan =>
      fits4 lotId && fits2 product && fits1 kit && fits1 cls && fits4 qty && fits1 planCount &&
      plan.length == 4 && plan.all PlanField.wf
  | .withdraw lotId => fits4 lotId
  | .dispose lotId reason flags detail tag disposition =>
      fits4 lotId && fits1 reason && fits1 flags && fits1 detail && fits1 tag && fits1 disposition
  | .placeHold lotId note => fits4 lotId && fits1 note
  | .placeFloorHold program reason => fits2 program && fits1 reason
  | .liftFloor tag => fits1 tag
  | .override origin tag => fits1 origin && fits1 tag
  | .clearSticky lotId => fits4 lotId
  | .clearFault bank => fits1 bank
  | .setGrade handler => fits1 handler
  | .collect number => fits2 number
  | .disposeRelease number disposition => fits2 number && fits1 disposition
  | .badFrame _ code => fits1 code
  | .requestFrameDiscarded => true
  | .loaded program => fits2 program
  | .loadFail code => fits1 code
  | .armed => true
  | .armFail code => fits1 code
  | .touchdown repeats entryCount entries =>
      fits1 repeats && fits1 entryCount && entries.length + 2 < 256 &&
      entries.all (fun e => e.1 < 16 && e.2 < 16)
  | .maskOk => true
  | .idle => true
  | .down => true
  | .up program => fits2 program
  | .testerBadMessage _ => true
  | .silenceTimerExpiry => true
  | .loadTimerExpiry => true
  | .drainTimerExpiry => true
  | .testerQueryTimer => true
  | .hello handler kit => fits1 handler && fits1 kit
  | .state temp => fits1 temp
  | .soaked temp => fits1 temp
  | .soakFail code => fits1 code
  | .kitDone kit => fits1 kit
  | .kitFail code => fits1 code
  | .index interval _ => interval < 2 ^ 15
  | .unitLost site => fits1 site
  | .passEnd pass fed => fits1 pass && fits3 fed
  | .bye => true
  | .handlerBadMessage _ carried => carried.all fits1
  | .absenceTimerExpiry => true
  | .leavingTimerExpiry => true
  | .soakTimerExpiry => true
  | .kitChangeTimerExpiry => true
  | .handlerQueryTimer => true
  | .readyChange _ => true
  | .periodEnd => true
  | .runTimeSecond _ => true
  | .holdReceived origin program tag reason =>
      fitsStation origin && HoldField.wf ⟨program, tag, reason⟩
  | .liftReceived origin program tag reason =>
      fitsStation origin && HoldField.wf ⟨program, tag, reason⟩
  | .claimReceived origin handler kit cls =>
      fitsStation origin && fits1 handler && fits1 kit && fits1 cls
  | .dockReceived origin handler kit grade =>
      fitsStation origin && HandlerField.wf ⟨handler, kit, grade⟩
  | .parkReceived origin handler kit grade =>
      fitsStation origin && HandlerField.wf ⟨handler, kit, grade⟩
  | .seekReceived origin kit cls => fitsStation origin && fits1 kit && fits1 cls
  | .statusReceived origin content => fitsStation origin && content.wf
  | .duplicateStation => true
  | .floorFrameDropped => true
  | .lineBusy => true
  | .attemptBegin => true
  | .arbitrationLost => true
  | .bulletinSent => true
  | .transmitError => true
  | .statusPeriodTimerExpiry => true
  | .quietTimerExpiry => true
  | .peerSilenceTimerExpiry peer => fitsStation peer
  | .claimTimerExpiry handler => 1 ≤ handler && handler ≤ 48
  | .seekRepeatTimerExpiry => true
  | .claimWindowExpiry => true
  | .dockWaitExpiry => true
  | .idleTimerExpiry => true
  | .delayExpiry number => 1 ≤ number && fits2 number
  | .powerOnReset _ => true
  | .powerOnResetEnd _ => true
  | .warmReset _ => true
  | .warmResetEnd => true
  | .joinClockMinute => true

end Instr

end Sys2Proof
end

