-- ==== Sys2Proof/Certificates/Slice0/Obligations.lean ====
section
/-! DEFINITION. The statements for the provers: the step and the resets, the requests of the cell terminal, the
tester, the handler, the samples, the floor line, the assignment and the release, then the rules over all states.
Where a right side reads `moved s (settle e)`, `e` is the device as the command's own effect leaves it,
`settle` runs the checks the blocks make after every event (log 5), and `moved` lets both pins follow (R55, R208). -/

open Sys2Proof Sys2Proof.Machine

/-! ## The step -/

/-- 0.8 Events: the command at the front is taken whole, the others wait. -/
def Obligations.StepTakesTheFrontCommand : Prop :=
  ∀ (c : Instr) (rest : List Instr) (d : Device), step ⟨c :: rest, d⟩ = exec c ⟨rest, d⟩

/-- The model's choice (log 2), with log 4 for TPM: a step on an empty queue lets one millisecond pass. Every running
timer of n + 1 goes to n, one at 0 stays at 0, where its expiry is due, one that does not run stays so, and TPM takes
the millisecond by `elapse` (ReadyAndRunTime spells it); with a reset held or in CONFIG nothing changes. And the
model's choice (log 3): each of the nineteen expiry commands, sent while its timer does not run (or for a peer,
handler or record that has none), changes nothing but the pins' refresh. -/
def Obligations.TimersTickAndExpireOnlyWhileRunning : Prop :=
  (∀ d : Device,
    (live d = false → step ⟨[], d⟩ = .next ⟨[], d⟩) ∧
    (live d = true → ∃ down : Timer → Timer,
      down none = none ∧ down (some 0) = some 0 ∧ (∀ n, down (some (n + 1)) = some n) ∧
      step ⟨[], d⟩ = .next ⟨[], elapse 1 { d with
        tpt := { d.tpt with
          load := d.tpt.load.map fun l => { l with timer := l.timer - 1 }
          silence := down d.tpt.silence, drain := down d.tpt.drain, query := down d.tpt.query }
        hpt := { d.hpt with
          absence := down d.hpt.absence, leaving := down d.hpt.leaving, query := down d.hpt.query
          soak := d.hpt.soak.map fun k => { k with timer := k.timer - 1 }
          kitChange := d.hpt.kitChange.map fun k => { k with timer := k.timer - 1 } }
        fli := { d.fli with
          statusTimer := down d.fli.statusTimer, quietTimer := down d.fli.quietTimer
          peers := Vector.ofFn fun o : Fin 32 => { d.fli.peers[o] with timer := down d.fli.peers[o].timer } }
        asu := { d.asu with
          table := Vector.ofFn fun h : Fin 48 => { d.asu.table[h] with timer := down d.asu.table[h].timer }
          idleTimer := down d.asu.idleTimer
          need := { d.asu.need with
            seekTimer := down d.asu.need.seekTimer, windowTimer := down d.asu.need.windowTimer
            dockWaitTimer := down d.asu.need.dockWaitTimer } }
        rlu := { d.rlu with
          records := d.rlu.records.map fun r => { r with timer := down r.timer } } }⟩)) ∧
  (∀ s : State,
    (s.dev.tpt.silence = none → exec .silenceTimerExpiry s = .next (moved s s.dev)) ∧
    (s.dev.tpt.load = none → exec .loadTimerExpiry s = .next (moved s s.dev)) ∧
    (s.dev.tpt.drain = none → exec .drainTimerExpiry s = .next (moved s s.dev)) ∧
    (s.dev.hpt.absence = none → exec .absenceTimerExpiry s = .next (moved s s.dev)) ∧
    (s.dev.hpt.leaving = none → exec .leavingTimerExpiry s = .next (moved s s.dev)) ∧
    (s.dev.hpt.soak = none → exec .soakTimerExpiry s = .next (moved s s.dev)) ∧
    (s.dev.hpt.kitChange = none → exec .kitChangeTimerExpiry s = .next (moved s s.dev)) ∧
    (s.dev.tpm.period = none → exec .periodEnd s = .next (moved s s.dev)) ∧
    (s.dev.fli.statusTimer = none → exec .statusPeriodTimerExpiry s = .next (moved s s.dev)) ∧
    (s.dev.fli.quietTimer = none → exec .quietTimerExpiry s = .next (moved s s.dev)) ∧
    (s.dev.asu.need.seekTimer = none → exec .seekRepeatTimerExpiry s = .next (moved s s.dev)) ∧
    (s.dev.asu.need.windowTimer = none → exec .claimWindowExpiry s = .next (moved s s.dev)) ∧
    (s.dev.asu.need.dockWaitTimer = none → exec .dockWaitExpiry s = .next (moved s s.dev)) ∧
    (s.dev.asu.idleTimer = none → exec .idleTimerExpiry s = .next (moved s s.dev))) ∧
  (∀ s : State,
    (s.dev.tpt.query = none → exec .testerQueryTimer s = .next (moved s s.dev)) ∧
    (s.dev.hpt.query = none → exec .handlerQueryTimer s = .next (moved s s.dev)) ∧
    (∀ o, 32 ≤ o → exec (.peerSilenceTimerExpiry o) s = .next (moved s s.dev)) ∧
    (∀ o : Fin 32, s.dev.fli.peers[o].timer = none →
      exec (.peerSilenceTimerExpiry o.val) s = .next (moved s s.dev)) ∧
    (∀ h, (entryAt s.dev h).timer = none → exec (.claimTimerExpiry h) s = .next (moved s s.dev)) ∧
    (∀ n, (∀ r, recordNumbered s.dev n = some r → r.state ≠ .delayed ∨ r.timer = none) →
      exec (.delayExpiry n) s = .next (moved s s.dev)))

/-! ## The resets -/

/-- 11.2, 12.7: what a power-on reset leaves, the RESET pin's level apart; no other field of the device is kept but the
pin levels that are inputs and the record of the lines (log 18). And: 12.7 (R212), R114: at the end of a power-on
reset the straps are read and the device rests in CONFIG. And: The state after reset is that of a power-on reset that
has ended, with the inputs the model's log 9 names. And: 12.7 (R212), R114, R135: RESET moving from low to middle
ends the power-on reset, reads the straps at that end and begins a warm reset that finds every block as after
power-on; a RESTART's warm reset does nothing while a power-on reset is held. -/
def Obligations.PowerOnResetAndItsEnd : Prop :=
  (∀ (byPin : Bool) (s : State), exec (.powerOnReset byPin) s = .next ⟨s.pending,
    { ctp := Ctp.reset .powerOn, lmg := Lmg.reset, tpt := Tpt.reset, hpt := Hpt.reset, tpm := Tpm.reset
      fli := Fli.reset s.dev.pins.straps.toNat, asu := Asu.reset, hdu := Hdu.reset, rlu := Rlu.reset
      pins := ⟨s.dev.pins.straps, s.dev.pins.ready, if byPin then .low else s.dev.pins.resetPin, false, false⟩
      lines := s.dev.lines }⟩) ∧
  (∀ (straps : BitVec 5) (s : State), s.dev.ctp.hold = .powerOn →
    exec (.powerOnResetEnd straps) s = .next ⟨s.pending,
      { ctp := Ctp.reset .running, lmg := Lmg.reset, tpt := Tpt.reset, hpt := Hpt.reset, tpm := Tpm.reset
        fli := Fli.reset straps.toNat, asu := Asu.reset, hdu := Hdu.reset, rlu := Rlu.reset
        pins := ⟨straps, s.dev.pins.ready, .high, false, false⟩, lines := s.dev.lines }⟩) ∧
  (∀ (byPin : Bool) (s t : State), s.pending = [] → s.dev.lines = Lines.none → s.dev.pins.ready = false →
    exec (.powerOnReset byPin) s = .next t → exec (.powerOnResetEnd 0) t = .next State.reset) ∧
  (∀ s : State, s.dev.ctp.hold = .powerOn →
    (∀ straps, exec (.warmReset (some straps)) s = .next ⟨s.pending,
      { ctp := Ctp.reset .warm, lmg := Lmg.reset, tpt := Tpt.reset, hpt := Hpt.reset, tpm := Tpm.reset
        fli := Fli.reset straps.toNat, asu := Asu.reset, hdu := Hdu.reset, rlu := Rlu.reset
        pins := ⟨straps, s.dev.pins.ready, .middle, false, false⟩, lines := s.dev.lines }⟩) ∧
    exec (.warmReset none) s = .next (moved s s.dev))

/-- R21: the slots are emptied and the counter is 0, and in CONFIG an ADMIT is refused and no lot enters. -/
def Obligations.PowerOnResetEmptiesTheLotTable : Prop :=
  (∀ (byPin : Bool) (s : State), ∃ t, exec (.powerOnReset byPin) s = .next t ∧
    (∀ i, lotAt t.dev i = none) ∧ t.dev.lmg.sequence = 0 ∧ t.dev.ctp.device = .config ∧ t.dev.ctp.config = none) ∧
  (∀ (lotId product kit cls qty planCount : Nat) (plan : List PlanField) (s : State),
    s.dev.ctp.device = .config → ∃ t, exec (.admitLot lotId product kit cls qty planCount plan) s = .next t ∧
      t.dev.lmg = s.dev.lmg) ∧
  (∀ s : State, s.dev.ctp.device = .config → s.dev.ctp.config = none →
    ∃ t, exec .join s = .next t ∧ t.dev.ctp.device = .config)

/-- Sections 1.7, 2.7, 3.8, 4.7, 5.9, 6.8, 7.9, 8.10, 9.8, 10.7, 11.2: what a warm reset leaves in JOINED, block by
block. RESTART's begins when its response has been sent (log 8); the pin begins one at once, and a RESTART pending
then is cleared with it, which is the model's choice (log 45). And: 1.7 (R20): what a warm reset makes of each lot
record: a lot with an open insertion goes to HELD with a RESTART entry and resume step STAGING, a staging lot without
one is QUEUED, and every other lot is kept. -/
def Obligations.WarmResetBlockByBlock : Prop :=
  (∀ (byPin : Option (BitVec 5)) (s : State), s.dev.ctp.hold = .running → s.dev.ctp.device = .joined →
    (byPin ≠ none ∨ s.dev.ctp.restartPending = true) →
    ∃ t, exec (.warmReset byPin) s = .next t ∧ t.pending = s.pending ∧
      t.dev.ctp.hold = .warm ∧ t.dev.ctp.waiting = [] ∧ t.dev.ctp.restartPending = false ∧
      t.dev.ctp.device = .joined ∧ t.dev.ctp.config = s.dev.ctp.config ∧
      t.dev.ctp.joinClock = s.dev.ctp.joinClock ∧ t.dev.ctp.frameErrors = s.dev.ctp.frameErrors ∧
      t.dev.ctp.floorBank = s.dev.ctp.floorBank ∧ t.dev.ctp.handlerBank = s.dev.ctp.handlerBank ∧
      t.dev.ctp.testerBank = s.dev.ctp.testerBank ∧
      t.dev.lmg.sequence = s.dev.lmg.sequence ∧
      t.dev.tpt = { Tpt.reset with mask := s.dev.tpt.mask, lastClosed := s.dev.tpt.lastClosed } ∧
      t.dev.hpt = { Hpt.reset with
        pass := s.dev.hpt.pass, passHandler := s.dev.hpt.passHandler, intake := s.dev.hpt.intake } ∧
      t.dev.tpm = Tpm.reset ∧
      t.dev.fli.station = s.dev.fli.station ∧ t.dev.fli.rxErrors = s.dev.fli.rxErrors ∧
      t.dev.fli.queue = [] ∧ t.dev.fli.slot = none ∧ t.dev.fli.score = 0 ∧
      t.dev.fli.peers = Vector.replicate 32 ⟨.unheard, none⟩ ∧
      t.dev.asu = { Asu.reset with table := vmap entryUnknown s.dev.asu.table } ∧
      t.dev.hdu.table = s.dev.hdu.table.map (fun e =>
        if e.origin = ownStation s.dev then e else { e with stale := true }) ∧
      t.dev.hdu.ownTag = s.dev.hdu.ownTag ∧ t.dev.hdu.holdsInPlay = [] ∧ t.dev.hdu.liftsInPlay = [] ∧
      t.dev.rlu.counter = s.dev.rlu.counter ∧
      t.dev.rlu.records = s.dev.rlu.records.map (fun r =>
        if r.state = .delayed then { r with timer := some (minutes (cfg s.dev).releaseDelay) } else r) ∧
      t.dev.pins.feed = false ∧ t.dev.hpt.effRun = false ∧ t.dev.lines = s.dev.lines) ∧
  (∀ (byPin : Option (BitVec 5)) (s : State) (i : Fin 8) (l : Lot), s.dev.ctp.hold = .running →
    s.dev.ctp.device = .joined → (byPin ≠ none ∨ s.dev.ctp.restartPending = true) → lotAt s.dev i = some l →
    ∃ t m, exec (.warmReset byPin) s = .next t ∧ lotAt t.dev i = some m ∧
      (l.opened = true → m.state = .held ∧ m.resume = some .staging ∧ m.passStarted = false ∧
        m.opened = true ∧ m.step = l.step ∧ m.acc = l.acc ∧ m.sticky = l.sticky ∧ m.marks = l.marks ∧
        m.stats = l.stats ∧ m.summary = l.summary ∧ m.fedCounts = l.fedCounts ∧ m.runTime = l.runTime ∧
        holdsLot m = true ∧ (l.state ≠ .held → m.unseen = true) ∧
        (l.holds.all (fun e => e.key != .restart) = true → l.holds.length < 6 →
          m.holds = l.holds ++ [⟨.restart, l.cur, now s.dev, 1, false⟩] ∧ m.overflow = l.overflow)) ∧
      (l.opened = false → l.state = .staging → m = { l with state := .queued }) ∧
      (l.opened = false → l.state ≠ .staging → m = l))

/-- 11.2 (R200), 2.7, 3.8, 7.9, 10.7: at the end of a warm reset in JOINED the line enters LISTEN, tester and handler are
queried, the silence timer starts for an open insertion, lots in REVIEW are offered, and then the waiting frames are
taken. And: 11.2 (R201): the join clock counts whole minutes in JOINED and saturates at 65,535. And: 11.1, 11.2
(R195, R200): where frames wait, the end of the warm reset is its end with the last frame left out, followed by that
frame's request taken as a command of its own: so the frames are taken one by one in arrival order, each on the
device the one before it leaves. And: 10.7 (R192): `offerAllReview` offers each lot in REVIEW once, in queue order.
-/
def Obligations.WarmResetEndAndJoinClock : Prop :=
  (∀ s : State, s.dev.ctp.hold = .warm → s.dev.ctp.waiting = [] →
    (s.dev.ctp.device = .joined → ∃ u, u = { s.dev with
        ctp := { s.dev.ctp with hold := .running }, pins := { s.dev.pins with resetPin := .high }
        tpt := { s.dev.tpt with silence := if anyOpen s.dev then some 5000 else none }
        fli := { s.dev.fli with line := .listen, statusTimer := some ((cfg s.dev).statusPeriod * 1000) } } ∧
      exec .warmResetEnd s =
        .next (moved s (settle (offerAllReview (sendHandler .query (sendTester .query u)))))) ∧
    (s.dev.ctp.device = .config → exec .warmResetEnd s = .next (moved s { s.dev with
      ctp := { s.dev.ctp with hold := .running }, pins := { s.dev.pins with resetPin := .high } }))) ∧
  (∀ s : State, s.dev.ctp.device = .joined → s.dev.ctp.hold ≠ .powerOn →
    exec .joinClockMinute s = .next (moved s { s.dev with
      ctp := { s.dev.ctp with joinClock := min 65535 (s.dev.ctp.joinClock + 1) } })) ∧
  (∀ (s : State) (before : List Instr) (c : Instr), s.dev.ctp.hold = .warm →
    s.dev.ctp.waiting = before ++ [c] → isRequestFrame c = true → ∃ t,
      exec .warmResetEnd { s with dev := { s.dev with ctp := { s.dev.ctp with waiting := before } } } = .next t ∧
      exec .warmResetEnd s = exec c t) ∧
  (∀ d : Device, ∃ lots : List (Fin 8 × Lot), offerAllReview d = lots.foldl (fun e x => offerReview x.1 e) d ∧
    (∀ i l, (i, l) ∈ lots ↔ lotAt d i = some l ∧ l.state = .review) ∧
    lots.Nodup ∧ lots.Pairwise fun a b => queueBefore b.2 a.2 = false)

/-! ## The requests of the cell terminal -/

/-- 11.2 (R197): in CONFIG every request but CONFIGURE, JOIN and the STATUS request is answered NOT_READY and not handed
on. And: 9.2, 9.3, 9.4, 9.7, 10.5, 6.5 (R162, R163, R171, R172, R177, R189, R190, R109): a request with a field
outside its range is answered BAD_FIELD with the lowest field at fault and changes nothing; so is a DISPOSE of an
unknown lot or an absent entry, NOT_FOUND. -/
def Obligations.RequestsRefusedAtOnce : Prop :=
  (∀ (c : Instr) (n : Nat) (s : State), ownedRequest c = some n → Served s.dev → s.dev.ctp.device = .config →
    exec c s = .next (moved s (respond ⟨n, .notReady, []⟩ s.dev))) ∧
  (∀ s : State, Serving s.dev →
    (∀ id note, id = 0 ∨ 4294967295 < id →
      exec (.placeHold id note) s = .next (moved s (respond ⟨10, .badField, [1]⟩ s.dev))) ∧
    (∀ id note, 1 ≤ id → id ≤ 4294967295 → 255 < note →
      exec (.placeHold id note) s = .next (moved s (respond ⟨10, .badField, [2]⟩ s.dev))) ∧
    (∀ p r, p = 0 ∨ 4095 < p →
      exec (.placeFloorHold p r) s = .next (moved s (respond ⟨11, .badField, [1]⟩ s.dev))) ∧
    (∀ p r, 1 ≤ p → p ≤ 4095 → r < 3 ∨ 15 < r →
      exec (.placeFloorHold p r) s = .next (moved s (respond ⟨11, .badField, [2]⟩ s.dev))) ∧
    (∀ t, t = 0 ∨ 255 < t →
      exec (.liftFloor t) s = .next (moved s (respond ⟨12, .badField, [1]⟩ s.dev)) ∧
      ∀ o, o ≤ 31 → exec (.override o t) s = .next (moved s (respond ⟨18, .badField, [2]⟩ s.dev))) ∧
    (∀ o t, 31 < o → exec (.override o t) s = .next (moved s (respond ⟨18, .badField, [1]⟩ s.dev))) ∧
    (∀ h, h = 0 ∨ 48 < h → exec (.setGrade h) s = .next (moved s (respond ⟨15, .badField, [1]⟩ s.dev))) ∧
    (∀ n, n = 0 ∨ 65535 < n →
      exec (.collect n) s = .next (moved s (respond ⟨16, .badField, [1]⟩ s.dev)) ∧
      ∀ x, exec (.disposeRelease n x) s = .next (moved s (respond ⟨17, .badField, [1]⟩ s.dev))) ∧
    (∀ n x, 1 ≤ n → n ≤ 65535 → x = 0 ∨ 2 < x →
      exec (.disposeRelease n x) s = .next (moved s (respond ⟨17, .badField, [2]⟩ s.dev))) ∧
    ∀ id reason flags detail tag x,
      (∀ n, firstBad (disposeChecks id reason flags detail tag x) = some n →
        exec (.dispose id reason flags detail tag x) s =
          .next (moved s (respond ⟨9, .badField, [BitVec.ofNat 8 n]⟩ s.dev))) ∧
      (firstBad (disposeChecks id reason flags detail tag x) = none →
        ((∀ i l, lotAt s.dev i = some l → l.id ≠ id) ∨ ∃ i l k, slotOfId s.dev id = some i ∧
          lotAt s.dev i = some l ∧ disposeKey reason detail tag = some k ∧ ∀ e ∈ l.holds, e.key ≠ k) →
        exec (.dispose id reason flags detail tag x) s = .next (moved s (respond ⟨9, .notFound, []⟩ s.dev))))

/-- 11.2 (R198): CONFIGURE in CONFIG replaces the held block or names the failing field; in JOINED it is LOCKED. And:
11.2 (R199): JOIN. -/
def Obligations.ConfigureAndJoin : Prop :=
  (∀ (fields : List CfgField) (s : State), Served s.dev →
    (s.dev.ctp.device = .joined →
      exec (.configure fields) s = .next (moved s (respond ⟨1, .locked, []⟩ s.dev))) ∧
    (∀ n, s.dev.ctp.device = .config → checkConfig fields = .inl n →
      exec (.configure fields) s = .next (moved s (respond ⟨1, .badField, [BitVec.ofNat 8 n]⟩ s.dev))) ∧
    (∀ b, s.dev.ctp.device = .config → checkConfig fields = .inr b →
      exec (.configure fields) s = .next (moved s (respond ⟨1, .ok, []⟩
        { s.dev with ctp := { s.dev.ctp with config := some b } })))) ∧
  (∀ s : State, Served s.dev →
    (s.dev.ctp.device = .joined → exec .join s = .next (moved s (respond ⟨2, .badState, []⟩ s.dev))) ∧
    (s.dev.ctp.device = .config → s.dev.ctp.config = none →
      exec .join s = .next (moved s (respond ⟨2, .notReady, []⟩ s.dev))) ∧
    (∀ c, s.dev.ctp.device = .config → s.dev.ctp.config = some c →
      exec .join s = .next (moved s (respond ⟨2, .ok, []⟩ (settle { s.dev with
        ctp := { s.dev.ctp with device := .joined, joinClock := 0 }
        fli := { s.dev.fli with line := .listen, statusTimer := some (c.statusPeriod * 1000) }
        lines := { s.dev.lines with
          testerOut := s.dev.lines.testerOut ++ [.query], handlerOut := s.dev.lines.handlerOut ++ [.query] } })))))

/-- 11.2 (R198): the fields are checked in ascending order, and the first that fails is named; a block without a bin of
class PASS fails at field 1. -/
def Obligations.ConfigureNamesTheFirstFailingField : Prop :=
  ∀ (fields : List CfgField), fields.length = 54 →
    (∀ n, checkConfig fields = .inl n →
      (1 ≤ n ∧ n ≤ 54 ∧ (fieldValues fields)[n - 1]? = some none ∧
        ∀ j, j + 1 < n → ∃ v, (fieldValues fields)[j]? = some (some v)) ∨
      (n = 1 ∧ (∀ v ∈ fieldValues fields, v.isSome = true) ∧
        ∀ b ∈ (blockOf (fieldValues fields)).bins.toList, b.cls ≠ .pass)) ∧
    (∀ c, checkConfig fields = .inr c →
      (∀ v ∈ fieldValues fields, v.isSome = true) ∧ c = blockOf (fieldValues fields) ∧
        ∃ b ∈ c.bins.toList, b.cls = .pass)

/-- 11.2 (R200): RESTART is answered OK, and from then on frames wait for the warm reset (log 8). And: 11.1 (R195), with
the model's choice of when CTP is not free (logs 7, 8): up to 2 frames wait, one more is discarded and counted, as a
frame the sender of commands has seen discarded is. And: 11.1 (R194): BAD_FRAME carries the code when the CRC passed
and 0 when it failed, and is counted. -/
def Obligations.RestartWaitingAndBadFrames : Prop :=
  (∀ s : State, Serving s.dev →
    exec .restart s = .next (moved s (respond ⟨3, .ok, []⟩
      { s.dev with ctp := { s.dev.ctp with restartPending := true } }))) ∧
  ((∀ (c : Instr) (s : State), isRequestFrame c = true →
    (s.dev.ctp.hold = .warm ∨ (s.dev.ctp.hold = .running ∧ s.dev.ctp.restartPending = true)) →
    exec c s = .next (moved s
      (if s.dev.ctp.waiting.length < 2 then
        { s.dev with ctp := { s.dev.ctp with waiting := s.dev.ctp.waiting ++ [c] } }
      else { s.dev with ctp := { s.dev.ctp with frameErrors := min 65535 (s.dev.ctp.frameErrors + 1) } }))) ∧
  (∀ s : State, s.dev.ctp.hold ≠ .powerOn →
    exec .requestFrameDiscarded s = .next (moved s
      { s.dev with ctp := { s.dev.ctp with frameErrors := min 65535 (s.dev.ctp.frameErrors + 1) } }))) ∧
  (∀ (crcPassed : Bool) (code : Nat) (s : State), Served s.dev →
    exec (.badFrame crcPassed code) s = .next (moved s
      (respond ⟨if crcPassed then code else 0, .badFrame, []⟩
        { s.dev with ctp := { s.dev.ctp with frameErrors := min 65535 (s.dev.ctp.frameErrors + 1) } })))

/-- 11.3 (R202): the STATUS request carries the device summary in CONFIG and in JOINED and changes nothing. And: 11.3
(R203, R204): an accepted READ returns the records in ascending index order; a READ of LOTS clears the unseen mark of
each lot it returns and no other table's READ changes anything. And: 11.3 (R203): a READ that is refused changes
nothing: field 1 for the table, 2 for the slot, 4 for the count, RANGE for the indices. -/
def Obligations.StatusRequestAndRead : Prop :=
  (∀ s : State, Served s.dev →
    exec .statusRequest s = .next (moved s (respond ⟨4, .ok, summaryRecord s.dev⟩ s.dev))) ∧
  (∀ (table slot first count : Nat) (t : Table) (s : State), Serving s.dev → tableOfCode table = some t →
    (readsSlot t = true → slot ≤ 7) → 1 ≤ count → count ≤ 16 → (indexRange t).1 ≤ first →
    first + count ≤ (indexRange t).2 + 1 →
    exec (.read table slot first count) s = .next (moved s
      (respond ⟨5, .ok, (List.range count).flatMap fun i => tableRecord s.dev t slot (first + i)⟩
        (if t = .lots then
          { s.dev with lmg := { s.dev.lmg with
            lots := Vector.ofFn fun i : Fin 8 =>
              if first ≤ i.val ∧ i.val < first + count then
                (lotAt s.dev i).map fun l => { l with unseen := false }
              else lotAt s.dev i } }
        else s.dev)))) ∧
  (∀ (table slot first count : Nat) (s : State), Serving s.dev →
    (tableOfCode table = none → exec (.read table slot first count) s =
      .next (moved s (respond ⟨5, .badField, [1]⟩ s.dev))) ∧
    (∀ t, tableOfCode table = some t →
      (readsSlot t = true → 7 < slot → exec (.read table slot first count) s =
        .next (moved s (respond ⟨5, .badField, [2]⟩ s.dev))) ∧
      ((readsSlot t = true → slot ≤ 7) → (count = 0 ∨ 16 < count) → exec (.read table slot first count) s =
        .next (moved s (respond ⟨5, .badField, [4]⟩ s.dev))) ∧
      ((readsSlot t = true → slot ≤ 7) → 1 ≤ count → count ≤ 16 →
        (first < (indexRange t).1 ∨ (indexRange t).2 + 1 < first + count) →
        exec (.read table slot first count) s = .next (moved s (respond ⟨5, .range, []⟩ s.dev)))))

/-- 11.3 (R205), 2.2, 2.3, 3.3: RETRY reports the three marks and clears them; the blocks then check again. And: 11.4
(R206): CLEAR_FAULT returns the record with its OVER flag and empties the bank; a bank that names none of the four is
field 1. -/
def Obligations.RetryAndClearFault : Prop :=
  (∀ s : State, Serving s.dev →
    exec .retry s = .next (moved s (respond
      ⟨6, .ok, markBytes s.dev.tpt.loadBlocked ++ markBytes s.dev.tpt.armRefused ++
        markBytes s.dev.hpt.soakBlocked⟩
      (settle { s.dev with
        tpt := { s.dev.tpt with loadBlocked := none, armRefused := none }
        hpt := { s.dev.hpt with soakBlocked := none } })))) ∧
  (∀ (b : Nat) (s : State), Serving s.dev →
    (∀ n, bankOfCode b = some n → exec (.clearFault b) s = .next (moved s
      (respond ⟨14, .ok, faultBytes n (bank s.dev n)⟩ (settle (setBank n ⟨none, false⟩ s.dev))))) ∧
    (bankOfCode b = none → exec (.clearFault b) s = .next (moved s (respond ⟨14, .badField, [1]⟩ s.dev))))

/-- 6.5 (R109): SET_GRADE of a docked handler, of one in LEAVING, and of any other. -/
def Obligations.SetGradeRestoresGradeA : Prop :=
  ∀ (h : Nat) (s : State), Serving s.dev → 1 ≤ h → h ≤ 48 →
    (s.dev.hpt.handler ≠ some h → exec (.setGrade h) s = .next (moved s (respond ⟨15, .notFound, []⟩ s.dev))) ∧
    (s.dev.hpt.handler = some h → ∃ u,
      u = { s.dev with tpm := { s.dev.tpm with grade := some .a, degrade := 0, recover := 0 } } ∧
      (s.dev.tpm.grade ≠ some .b → s.dev.tpm.grade ≠ some .c →
        exec (.setGrade h) s = .next (moved s (respond ⟨15, .ok, []⟩ (settle u)))) ∧
      ((s.dev.tpm.grade = some .b ∨ s.dev.tpm.grade = some .c) → s.dev.hpt.presence ≠ .leaving →
        exec (.setGrade h) s = .next (moved s (respond ⟨15, .ok, []⟩
          (settle (setEntry h { entryAt s.dev h with grade := some .a } u))))) ∧
      ((s.dev.tpm.grade = some .b ∨ s.dev.tpm.grade = some .c) → s.dev.hpt.presence = .leaving →
        exec (.setGrade h) s = .next (moved s (respond ⟨15, .ok, []⟩
          (settle (offer (.park h (entryAt s.dev h).kit (some .a))
            (setEntry h { entryAt s.dev h with grade := some .a } u)))))))

/-- 1.2 (R3): the checks of ADMIT in their order, each refusal changing no state. The fields are numbered as R3 numbers
them, entries past the count are not read. -/
def Obligations.AdmitRefusalsInOrder : Prop :=
  ∀ (lotId product kit cls qty planCount : Nat) (plan : List PlanField) (s : State), Served s.dev →
    ∃ checks : List (Nat × Bool),
      checks = [(1, decide (1 ≤ lotId ∧ lotId ≤ 4294967295)), (2, decide (1 ≤ product ∧ product ≤ 65535)),
        (3, decide (1 ≤ kit ∧ kit ≤ 255)), (4, decide (cls ≤ 3)), (5, decide (1 ≤ qty ∧ qty ≤ 500000)),
        (6, decide (1 ≤ planCount ∧ planCount ≤ 4))] ++
        ((plan.take planCount).zipIdx 1).flatMap (fun e =>
          [(3 * e.2 + 4, decide (1 ≤ e.1.program ∧ e.1.program ≤ 4095)),
           (3 * e.2 + 5, decide (1 ≤ e.1.temp ∧ e.1.temp ≤ 3)), (3 * e.2 + 6, decide (e.1.retests ≤ 3))]) ∧
      (s.dev.ctp.device = .config → exec (.admitLot lotId product kit cls qty planCount plan) s =
        .next (moved s (respond ⟨7, .notReady, []⟩ s.dev))) ∧
      (s.dev.ctp.device = .joined → ∀ n, (checks.find? fun c => !c.2).map (·.1) = some n →
        exec (.admitLot lotId product kit cls qty planCount plan) s =
          .next (moved s (respond ⟨7, .badField, [BitVec.ofNat 8 n]⟩ s.dev))) ∧
      (s.dev.ctp.device = .joined → (∀ c ∈ checks, c.2 = true) →
        ((∃ i l, lotAt s.dev i = some l ∧ l.id = lotId) ∨ (∃ r ∈ s.dev.rlu.records, r.lotId = lotId)) →
        exec (.admitLot lotId product kit cls qty planCount plan) s =
          .next (moved s (respond ⟨7, .duplicate, []⟩ s.dev))) ∧
      (s.dev.ctp.device = .joined → (∀ c ∈ checks, c.2 = true) →
        (∀ i l, lotAt s.dev i = some l → l.id ≠ lotId) → (∀ r ∈ s.dev.rlu.records, r.lotId ≠ lotId) →
        (∀ i, lotAt s.dev i ≠ none) →
        exec (.admitLot lotId product kit cls qty planCount plan) s =
          .next (moved s (respond ⟨7, .full, []⟩ s.dev)))

/-- 1.2, 1.3 (R4, R5, R8): an accepted ADMIT that no floor hold covers fills the lowest empty slot with a new record in
QUEUED, a class-0 lot preempts, and the response names slot and state. The number is the sequence counter's next,
after the lots have been numbered afresh where the counter stood at its top. And: 1.2, 9.1, 9.4 (R4, R161, R169): an
ADMIT that a floor hold covers fills the slot with a lot in HELD, resume step QUEUED, its unseen mark set, with one
tracked REMOTE entry for each of the first 6 covering entries in table order; each covering entry past 6 sets the
overflow mark and raises HOLD_SET_FULL in the ACCOUNTING bank. And: 1.3 (R8): `preempt` returns a staging lot of
class 1 to 3 whose insertion is not open to QUEUED, and leaves the device as it is where the staging lot is of class
0 or open, or there is none. -/
def Obligations.AdmitFillsTheLowestEmptySlot : Prop :=
  (∀ (lotId product kit cls qty planCount : Nat) (plan : List PlanField) (i : Fin 8) (s : State), Serving s.dev →
    firstBad (admitChecks lotId product kit cls qty planCount plan) = none →
    idHeld s.dev lotId = false → emptySlot s.dev = some i → ∃ r n,
    r = (if 65535 ≤ s.dev.lmg.sequence then renumber s.dev else s.dev) ∧ n = r.lmg.sequence + 1 ∧
    ((∀ e ∈ s.dev.hdu.table, ∀ p ∈ plan.take planCount, p.program ≠ e.program) →
      ∃ u, u = { r with lmg := ⟨r.lmg.lots.set i (some (newLot lotId product kit cls qty n
        ((plan.take planCount).map planEntryOf))), n⟩ } ∧
      exec (.admitLot lotId product kit cls qty planCount plan) s = .next (moved s
        (respond ⟨7, .ok, [BitVec.ofNat 8 i.val, 1]⟩ (settle (if cls = 0 then preempt u else u))))) ∧
    ((s.dev.hdu.table.map fun e => (e.origin, e.tag)).Nodup →
      ∃ cover, cover = s.dev.hdu.table.filter
        (fun e => (plan.take planCount).any fun p => p.program == e.program) ∧
      (cover ≠ [] → ∃ t m, exec (.admitLot lotId product kit cls qty planCount plan) s = .next t ∧
        t.dev.lines.terminalOut = s.dev.lines.terminalOut ++ [⟨7, .ok, [BitVec.ofNat 8 i.val, 7]⟩] ∧
        t.dev.lmg.sequence = n ∧ t.dev.hdu = s.dev.hdu ∧
        lotAt t.dev i = some m ∧ m.id = lotId ∧ m.seq = n ∧ m.state = .held ∧
        m.resume = some .queued ∧ m.unseen = true ∧ m.opened = false ∧
        m.holds = (cover.take 6).map (fun e => ⟨.remote e.origin e.tag, 1, now s.dev, 1, false⟩) ∧
        m.overflow = decide (6 < cover.length) ∧ m.holdCount = min 6 cover.length ∧
        t.dev.ctp.accountingBank = (cover.drop 6).foldl
          (fun b _ => takeFault b ⟨.corrected, .holdSetFull, i.val, now s.dev⟩) s.dev.ctp.accountingBank))) ∧
  (∀ d : Device, (∀ i l, stagingLot d = some (i, l) → 1 ≤ l.cls → l.opened = false →
      preempt d = putLot i (some { l with state := .queued }) d) ∧
    ((∀ i l, stagingLot d = some (i, l) → l.cls = 0 ∨ l.opened = true) → preempt d = d))

/-- 1.6 (R18): WITHDRAW. And: 4.6 (R75): CLEAR_STICKY clears the five flags of the named lot and no other field. And: 9.2
(R162): PLACE_HOLD takes its request by R161 and answers the outcome. And: 1.4 (R9): `enterHeld` moves a lot that
something holds to HELD with the resume step of its state and the unseen mark, and leaves a lot that is HELD already
or that nothing holds. And: 9.1 (R161): `holdRequest` adds a new key while the set has fewer than 6 entries, sets the
overflow mark with HOLD_SET_FULL when it has 6, and where the key is in the set counts a local repeat or lets a
tracked REMOTE request clear the untracked mark; then the lot may enter HELD. -/
def Obligations.WithdrawClearStickyAndPlaceHold : Prop :=
  ((∀ (id : Nat) (s : State), Serving s.dev →
    ((∀ i l, lotAt s.dev i = some l → l.id ≠ id) →
      exec (.withdraw id) s = .next (moved s (respond ⟨8, .notFound, []⟩ s.dev))) ∧
    (∀ i l, slotOfId s.dev id = some i → lotAt s.dev i = some l → l.opened = false →
      (l.state = .queued ∨ l.state = .staging ∨ l.state = .held) →
      exec (.withdraw id) s = .next (moved s (respond ⟨8, .ok, []⟩ (settle
        { s.dev with lmg := { s.dev.lmg with lots := s.dev.lmg.lots.set i none } })))) ∧
    (∀ i l, slotOfId s.dev id = some i → lotAt s.dev i = some l →
      (l.opened = true ∨ l.state = .running ∨ l.state = .retest ∨ l.state = .closing ∨ l.state = .review) →
      exec (.withdraw id) s = .next (moved s (respond ⟨8, .badState, []⟩ s.dev)))) ∧
  (∀ (id : Nat) (s : State), Serving s.dev →
    (∀ i l, slotOfId s.dev id = some i → lotAt s.dev i = some l →
      exec (.clearSticky id) s = .next (moved s (respond ⟨13, .ok, []⟩
        (putLot i (some { l with sticky := ⟨false, false, false, false, false⟩ }) s.dev)))) ∧
    ((∀ i l, lotAt s.dev i = some l → l.id ≠ id) →
      exec (.clearSticky id) s = .next (moved s (respond ⟨13, .notFound, []⟩ s.dev))))) ∧
  (∀ (id note : Nat) (s : State), Serving s.dev → 1 ≤ id → id ≤ 4294967295 → note ≤ 255 →
    ((∀ i l, lotAt s.dev i = some l → l.id ≠ id) →
      exec (.placeHold id note) s = .next (moved s (respond ⟨10, .notFound, []⟩ s.dev))) ∧
    (∀ i l, slotOfId s.dev id = some i → lotAt s.dev i = some l →
      (l.holds.all (fun e => e.key != .operator note) = true → l.holds.length < 6 → ∃ m,
        m = { l with
          holds := l.holds ++ [⟨.operator note, l.cur, now s.dev, 1, false⟩]
          holdCount := min 255 (l.holdCount + 1) } ∧
        exec (.placeHold id note) s = .next (moved s (respond ⟨10, .ok, [1]⟩
          (settle (enterHeld i (putLot i (some m) s.dev)))))) ∧
      (l.holds.any (fun e => e.key == .operator note) = true → ∃ m,
        m = { l with holds := l.holds.map fun e =>
          if e.key = .operator note then { e with repeats := min 255 (e.repeats + 1) } else e } ∧
        exec (.placeHold id note) s = .next (moved s (respond ⟨10, .ok, [2]⟩
          (settle (enterHeld i (putLot i (some m) s.dev)))))) ∧
      (l.holds.all (fun e => e.key != .operator note) = true → 6 ≤ l.holds.length →
        exec (.placeHold id note) s = .next (moved s (respond ⟨10, .ok, [3]⟩
          (settle (enterHeld i (raise .accounting .corrected .holdSetFull i.val
            (putLot i (some { l with overflow := true }) s.dev))))))))) ∧
  (∀ (i : Fin 8) (l : Lot) (d : Device), lotAt d i = some l →
    (l.state = .held ∨ (l.holds = [] ∧ l.overflow = false) → enterHeld i d = d) ∧
    (l.state ≠ .held → l.holds ≠ [] ∨ l.overflow = true → ∃ r : ResumeStep,
      (l.state = .queued → r = .queued) ∧ (l.state = .staging → r = if l.opened then .staging else .queued) ∧
      (l.state = .running → r = .running) ∧
      (∀ k, l.state = .retest → l.step = some (.pass k) → r = .retest k) ∧
      (l.state = .closing → r = .closing) ∧ (l.state = .review → r = .review) ∧
      enterHeld i d = settle (putLot i (some { l with state := .held, resume := some r, unseen := true }) d))) ∧
  (∀ (i : Fin 8) (l : Lot) (key : HoldKey) (u : Bool) (d : Device), lotAt d i = some l → ∃ remote : Bool,
    (remote = true ↔ ∃ o t, key = .remote o t) ∧
    ((∃ e ∈ l.holds, e.key = key) → holdRequest i key u d = enterHeld i (putLot i (some { l with
      holds := l.holds.map fun e => if e.key = key then
          (if remote then { e with untracked := e.untracked && u }
            else { e with repeats := min 255 (e.repeats + 1) })
        else e }) d)) ∧
    ((∀ e ∈ l.holds, e.key ≠ key) → l.holds.length < 6 → holdRequest i key u d = enterHeld i (putLot i (some { l with
      holds := l.holds ++ [⟨key, l.cur, now d, 1, u && remote⟩], holdCount := min 255 (l.holdCount + 1) }) d)) ∧
    ((∀ e ∈ l.holds, e.key ≠ key) → 6 ≤ l.holds.length → holdRequest i key u d = enterHeld i
      (raise .accounting .corrected .holdSetFull i.val (putLot i (some { l with overflow := true }) d))))

/-- 9.3 (R163 to R165): an accepted DISPOSE on a local entry: RESUME removes the entry, CLOSE sets the close-on-continue
mark too, and the lot continues when nothing holds it; SCRAP removes the lot, and is all a REMOTE entry admits. And:
a DISPOSE on the overflow mark that does not scrap is refused while the set holds 6 entries; otherwise RESUME and
CLOSE clear the mark, and the lot continues when nothing holds it. And: 1.6 (R19): `scrapLot` empties the slot; of an
open insertion it stops the drain and silence timers (the drain: log 12), and the arm record that is ARMED for it is
cleared, with HALT while the link is UP. And: 1.4 (R11): `lotContinues` goes to the resume step: into CLOSING where
the close-on-continue mark stands in a pass, into QUEUED (a class-0 lot preempts), REVIEW or CLOSING, a re-stage for
STAGING, and for RUNNING and RETEST k the pass as it was, with START_PASS where it had not started, while tester and
handler are as the pass needs, and a re-stage otherwise. And: 1.5, 2.6 (R14, R15, R37): `restage` enters STAGING, and
CLOSING at once from step DRAIN; `enterClosing` starts the drain: HALT and the 5 s timer while the tester is UP and
the arm record names the insertion, and otherwise the drain ends at once: arm record cleared, timer stopped, open
insertion closed. -/
def Obligations.DisposeResumesClosesOrScraps : Prop :=
  (∀ (id reason flags detail tag disposition : Nat) (i : Fin 8) (l : Lot) (k : HoldKey) (s : State),
    Serving s.dev → firstBad (disposeChecks id reason flags detail tag disposition) = none →
    disposeKey reason detail tag = some k → slotOfId s.dev id = some i → lotAt s.dev i = some l →
    l.holds.any (fun e => e.key == k) = true →
    (disposition = 3 → exec (.dispose id reason flags detail tag disposition) s =
      .next (moved s (respond ⟨9, .ok, []⟩ (scrapLot i s.dev)))) ∧
    (disposition ≠ 3 → isRemote k = true → exec (.dispose id reason flags detail tag disposition) s =
      .next (moved s (respond ⟨9, .badState, []⟩ s.dev))) ∧
    (disposition ≠ 3 → isRemote k = false → ∃ m,
      m = { l with
        holds := l.holds.filter (fun e => e.key != k)
        closeOnContinue := l.closeOnContinue || disposition == 2 } ∧
      (m.holds ≠ [] ∨ m.overflow = true → exec (.dispose id reason flags detail tag disposition) s =
        .next (moved s (respond ⟨9, .ok, []⟩ (settle (putLot i (some m) s.dev))))) ∧
      (m.holds = [] → m.overflow = false → l.state = .held →
        exec (.dispose id reason flags detail tag disposition) s =
          .next (moved s (respond ⟨9, .ok, []⟩ (settle (lotContinues i (putLot i (some m) s.dev)))))))) ∧
  (∀ (id disposition : Nat) (i : Fin 8) (l : Lot) (s : State), Serving s.dev → 1 ≤ id → id ≤ 4294967295 →
    1 ≤ disposition → disposition ≤ 3 → slotOfId s.dev id = some i → lotAt s.dev i = some l →
    (l.overflow = false → exec (.dispose id 10 0 0 0 disposition) s =
      .next (moved s (respond ⟨9, .notFound, []⟩ s.dev))) ∧
    (l.overflow = true → exec (.dispose id 10 0 0 0 3) s =
      .next (moved s (respond ⟨9, .ok, []⟩ (scrapLot i s.dev)))) ∧ (disposition ≤ 2 →
    (l.overflow = true → 6 ≤ l.holds.length → exec (.dispose id 10 0 0 0 disposition) s =
      .next (moved s (respond ⟨9, .badState, []⟩ s.dev))) ∧
    (l.overflow = true → l.holds.length < 6 → ∃ m,
      m = { l with overflow := false, closeOnContinue := l.closeOnContinue || disposition == 2 } ∧
      (l.holds ≠ [] → exec (.dispose id 10 0 0 0 disposition) s =
        .next (moved s (respond ⟨9, .ok, []⟩ (settle (putLot i (some m) s.dev))))) ∧
      (l.holds = [] → l.state = .held → exec (.dispose id 10 0 0 0 disposition) s =
        .next (moved s (respond ⟨9, .ok, []⟩ (settle (lotContinues i (putLot i (some m) s.dev))))))))) ∧
  (∀ (i : Fin 8) (l : Lot) (d : Device), lotAt d i = some l → ∃ t : Tpt,
    t = { d.tpt with drain := none, silence := none } ∧
    (l.opened = false → scrapLot i d = settle (putLot i none d)) ∧
    (l.opened = true → armedFor d l = false → scrapLot i d = settle (putLot i none { d with tpt := t })) ∧
    (l.opened = true → armedFor d l = true → d.tpt.link = .up → scrapLot i d = settle (putLot i none { d with
      tpt := { t with arm := ⟨.unarmed, 0, 0, 0, 0⟩ }
      lines := { d.lines with testerOut := d.lines.testerOut ++ [.halt] } })) ∧
    (l.opened = true → armedFor d l = true → d.tpt.link ≠ .up → scrapLot i d = settle (putLot i none { d with
      tpt := { t with arm := ⟨.unarmed, 0, 0, 0, 0⟩ } }))) ∧
  (∀ (i : Fin 8) (l : Lot) (r : ResumeStep) (d : Device), lotAt d i = some l → l.resume = some r →
    ∃ (closes : Prop) (needs : Prop) (q : Lot),
    (closes ↔ l.closeOnContinue = true ∧ (∃ k, l.step = some (.pass k)) ∧
      (r = .running ∨ (∃ k, r = .retest k) ∨ r = .staging)) ∧
    (needs ↔ d.tpt.arm.state = .armed ∧ d.tpt.arm.lot = l.id ∧ d.tpt.arm.insertion = l.cur ∧
      d.hpt.presence = .present ∧ d.hpt.handler = d.hpt.passHandler ∧ d.hpt.kit = l.kit ∧
      d.hpt.soaked = some (currentEntry l).temp) ∧
    q = { l with resume := none, closeOnContinue := false } ∧
    (closes → lotContinues i d = enterClosing i d) ∧
    (r = .queued → ∃ u, u = putLot i (some { q with state := .queued }) d ∧
      lotContinues i d = settle (if l.cls = 0 then preempt u else u)) ∧
    (r = .review → lotContinues i d = settle (offerReview i (putLot i (some { q with state := .review }) d))) ∧
    (r = .closing → lotContinues i d =
      settle (putLot i (some { l with state := .closing, resume := none }) d)) ∧
    (¬ closes →
      (r = .staging → lotContinues i d = restage i d) ∧
      (∀ k, (r = .running ∧ k = 0) ∨ r = .retest k → ∃ u,
        u = putLot i (some { l with
          state := if k = 0 then .running else .retest, resume := none, passStarted := true }) d ∧
        (¬ needs → lotContinues i d = restage i d) ∧
        (needs → l.passStarted = true → lotContinues i d = settle u) ∧
        (needs → l.passStarted = false → lotContinues i d = settle { u with
          hpt := { d.hpt with pass := some k, passHandler := d.hpt.handler, intake := 0 }
          lines := { d.lines with handlerOut := d.lines.handlerOut ++
            [.startPass k (if k = 0 then l.qIn - l.acc.t1 else l.acc.pendingNow)] } })))) ∧
  (∀ (i : Fin 8) (l : Lot) (d : Device), lotAt d i = some l → ∃ m n : Lot,
    m = { l with state := .staging, resume := none, passStarted := false } ∧
    n = { l with state := .closing, resume := none, step := some .drain } ∧
    (l.step ≠ some .drain → restage i d = settle (putLot i (some m) d)) ∧
    (l.step = some .drain → restage i d = enterClosing i (putLot i (some m) d)) ∧
    enterClosing i d = startDrain n (putLot i (some n) d)) ∧
  (∀ (l : Lot) (d : Device), ∃ names : Prop,
    (names ↔ d.tpt.arm.state ≠ .unarmed ∧ d.tpt.arm.lot = l.id ∧ d.tpt.arm.insertion = l.cur) ∧
    (d.tpt.link = .up → names → startDrain l d = { d with
      tpt := { d.tpt with drain := some 5000 }
      lines := { d.lines with testerOut := d.lines.testerOut ++ [.halt] } }) ∧
    (d.tpt.link ≠ .up ∨ ¬ names → startDrain l d = endDrain d)) ∧
  (∀ d : Device, ∃ u, u = { d with tpt := { d.tpt with drain := none, arm := ⟨.unarmed, 0, 0, 0, 0⟩ } } ∧
    (openLot d = none → endDrain d = u) ∧ ∀ i l, openLot d = some (i, l) → endDrain d = closeInsertion i u)

/-- 9.4 to 9.7 (R171, R172, R177): the requests on the floor-hold table. And: 9.4, 9.7 (R168, R177): `offerLift` marks
the tag's LIFT in play and offers it; `untrackedHeld` finds a lot with an untracked REMOTE entry of that key. -/
def Obligations.FloorHoldRequests : Prop :=
  (∀ s : State, Serving s.dev →
    (∀ program reason, 1 ≤ program → program ≤ 4095 → 3 ≤ reason → reason ≤ 15 →
      (∀ e, ownEntryFor s.dev program = some e →
        exec (.placeFloorHold program reason) s =
          .next (moved s (respond ⟨11, .duplicate, [BitVec.ofNat 8 e.tag]⟩ s.dev))) ∧
      (ownEntryFor s.dev program = none → 8 ≤ s.dev.hdu.table.length →
        exec (.placeFloorHold program reason) s = .next (moved s (respond ⟨11, .full, []⟩ s.dev))) ∧
      (ownEntryFor s.dev program = none → s.dev.hdu.table.length < 8 → ∃ n e u,
        n = nextTag s.dev ∧ e = ⟨program, ownStation s.dev, n, reason, false⟩ ∧
        u = { s.dev with hdu := { s.dev.hdu with
          ownTag := n, table := s.dev.hdu.table ++ [e], holdsInPlay := s.dev.hdu.holdsInPlay ++ [n] } } ∧
        exec (.placeFloorHold program reason) s = .next (moved s (respond ⟨11, .ok, [BitVec.ofNat 8 n]⟩
          (settle (applyFloorHold e (offer (.hold program n reason) u))))))) ∧
    (∀ tag, 1 ≤ tag → tag ≤ 255 →
      (floorEntry s.dev (ownStation s.dev) tag = none →
        exec (.liftFloor tag) s = .next (moved s (respond ⟨12, .notFound, []⟩ s.dev))) ∧
      (∀ e, floorEntry s.dev (ownStation s.dev) tag = some e →
        exec (.liftFloor tag) s = .next (moved s (respond ⟨12, .ok, []⟩
          (settle (offerLift e.program tag (removeFloorEntry (ownStation s.dev) tag s.dev))))))) ∧
    (∀ origin tag, origin ≤ 31 → 1 ≤ tag → tag ≤ 255 →
      (∀ e, floorEntry s.dev origin tag = some e → e.stale = true →
        exec (.override origin tag) s = .next (moved s (respond ⟨18, .ok, []⟩
          (settle (removeFloorEntry origin tag s.dev))))) ∧
      (∀ e, floorEntry s.dev origin tag = some e → e.stale = false →
        exec (.override origin tag) s = .next (moved s (respond ⟨18, .badState, []⟩ s.dev))) ∧
      (floorEntry s.dev origin tag = none → untrackedHeld s.dev origin tag = true →
        exec (.override origin tag) s = .next (moved s (respond ⟨18, .ok, []⟩
          (settle (loseRemotes origin tag true s.dev))))) ∧
      (floorEntry s.dev origin tag = none → untrackedHeld s.dev origin tag = false →
        exec (.override origin tag) s = .next (moved s (respond ⟨18, .notFound, []⟩ s.dev))))) ∧
  (∀ (o p t : Nat) (d : Device),
    offerLift p t d = offer (.lift p t) { d with hdu := { d.hdu with liftsInPlay := d.hdu.liftsInPlay ++ [t] } } ∧
    (untrackedHeld d o t = true ↔ ∃ i l, lotAt d i = some l ∧ ∃ x ∈ l.holds, x.key = .remote o t ∧
      x.untracked = true))

/-- 10.5 (R189, R190): COLLECT returns a READY record and removes it; DISPOSE_RELEASE scraps a RECALLED record or returns
one whose cause is UNTRACKED. A place that becomes empty is taken by a lot in REVIEW (R184). And: 10.3 (R185): at the
end of its delay a DELAYED record becomes READY, its timer stopped; every other record is as before, and so is
everything else until the checks. And: 10.2 (R184): `takeWaiting` gives a free place to the lot in REVIEW that queue
order puts first, and does nothing without a place or a lot; `offerReview` creates the record at once where a place
is free and otherwise notes RELEASE_QUEUE_FULL once for the lot. And: 10.1, 10.2, 10.4 (R181, R183, R187):
`createRelease` takes the lot out of its slot and appends a record with the next number, the lot's identity, plan
programs, first and last quantity, counts of its last close, attrition, yield, run time, hold count and marks; it is
RECALLED by the first floor-hold entry that covers it, and otherwise READY at a delay of 0 or DELAYED with its timer
at the release delay. And: 10.2, 10.4 (R183, R188): `placeRecord` recalls a record by its first covering entry, and
without one makes it READY at a delay of 0 or DELAYED. -/
def Obligations.ReleaseRequestsAndDelay : Prop :=
  (∀ (number : Nat) (s : State), Serving s.dev → 1 ≤ number → number ≤ 65535 →
    (recordNumbered s.dev number = none →
      exec (.collect number) s = .next (moved s (respond ⟨16, .notFound, []⟩ s.dev)) ∧
      ∀ disposition, 1 ≤ disposition → disposition ≤ 2 →
        exec (.disposeRelease number disposition) s = .next (moved s (respond ⟨17, .notFound, []⟩ s.dev))) ∧
    (∀ r, recordNumbered s.dev number = some r → ∃ u, u = { s.dev with rlu :=
        { s.dev.rlu with records := s.dev.rlu.records.filter fun x => x.number != number } } ∧
      (r.state = .ready → exec (.collect number) s = .next (moved s
        (respond ⟨16, .ok, collectBytes r⟩ (settle (takeWaiting u))))) ∧
      (r.state ≠ .ready → exec (.collect number) s = .next (moved s
        (respond ⟨16, .badState, [BitVec.ofNat 8 (releaseCode r.state)]⟩ s.dev))) ∧
      (r.state = .recalled → exec (.disposeRelease number 2) s = .next (moved s
        (respond ⟨17, .ok, []⟩ (settle (takeWaiting u))))) ∧
      (r.state = .recalled → r.cause = some .untracked → exec (.disposeRelease number 1) s = .next (moved s
        (respond ⟨17, .ok, []⟩ { s.dev with rlu := { s.dev.rlu with
          records := s.dev.rlu.records.map fun x =>
            if x.number = number then placeRecord (cfg s.dev) (firstCover s.dev r.programs) x else x } }))) ∧
      (r.state = .recalled → r.cause ≠ some .untracked → exec (.disposeRelease number 1) s = .next (moved s
        (respond ⟨17, .badState, []⟩ s.dev))) ∧
      (r.state ≠ .recalled → ∀ disposition, 1 ≤ disposition → disposition ≤ 2 →
        exec (.disposeRelease number disposition) s = .next (moved s (respond ⟨17, .badState, []⟩ s.dev))))) ∧
  (∀ (number : Nat) (r : Release) (n : Nat) (s : State), live s.dev = true →
    recordNumbered s.dev number = some r → r.state = .delayed → r.timer = some n →
    exec (.delayExpiry number) s = .next (moved s (settle { s.dev with rlu := { s.dev.rlu with
      records := s.dev.rlu.records.map fun x =>
        if x.number = number then { x with state := .ready, timer := none } else x } }))) ∧
  (∀ d : Device,
    (6 ≤ d.rlu.records.length ∨ (∀ i l, lotAt d i = some l → l.state ≠ .review) → takeWaiting d = d) ∧
    ∀ i l, d.rlu.records.length < 6 → lotAt d i = some l → l.state = .review →
      (∀ j m, lotAt d j = some m → m.state = .review → j ≠ i → queueBefore l m = true) →
      takeWaiting d = createRelease i l d) ∧
  (∀ (i : Fin 8) (l : Lot) (d : Device), lotAt d i = some l →
    (d.rlu.records.length < 6 → offerReview i d = createRelease i l d) ∧
    (6 ≤ d.rlu.records.length → l.releaseWaitNoted = true → offerReview i d = d) ∧
    (6 ≤ d.rlu.records.length → l.releaseWaitNoted = false →
      offerReview i d = raise .accounting .note .releaseQueueFull i.val
        (putLot i (some { l with releaseWaitNoted := true }) d))) ∧
  (∀ (i : Fin 8) (l : Lot) (m : CloseSummary) (d : Device), l.summary = some m → ∃ (n : Nat) (r : Release),
    n = nextNumber d ∧
    createRelease i l d = putLot i none { d with rlu := ⟨d.rlu.records ++ [r], n⟩ } ∧
    r.number = n ∧ r.lotId = l.id ∧ r.product = l.product ∧ r.kit = l.kit ∧
    r.programs = l.plan.map (·.program) ∧ r.completed = l.completed ∧ r.qFirst = l.qFirst ∧ r.qLast = m.qIn ∧
    r.good = m.good ∧ r.reject = m.reject ∧ r.missing = m.missing ∧ r.excess = m.excess ∧
    r.attrition = (l.qFirst : Int) - (m.qIn : Int) ∧ r.finalYield = m.finalYield ∧ r.runTime = l.runTime ∧
    r.holdCount = l.holdCount ∧ r.marks = l.marks ∧
    (∀ e, d.hdu.table.find? (fun e => r.programs.contains e.program) = some e →
      r.state = .recalled ∧ r.timer = none ∧ r.cause = some (.entry e.origin e.tag)) ∧
    ((∀ e ∈ d.hdu.table, e.program ∉ r.programs) → r.cause = none ∧
      ((cfg d).releaseDelay = 0 → r.state = .ready ∧ r.timer = none) ∧
      ((cfg d).releaseDelay ≠ 0 → r.state = .delayed ∧ r.timer = some ((cfg d).releaseDelay * 60000)))) ∧
  (∀ (p : List Nat) (r : Release) (d : Device),
    firstCover d p = d.hdu.table.find? (fun e => p.contains e.program) ∧
    (∀ e, placeRecord (cfg d) (some e) r =
      { r with state := .recalled, timer := none, cause := some (.entry e.origin e.tag) }) ∧
    ((cfg d).releaseDelay = 0 →
      placeRecord (cfg d) none r = { r with state := .ready, timer := none, cause := none }) ∧
    ((cfg d).releaseDelay ≠ 0 → placeRecord (cfg d) none r =
      { r with state := .delayed, timer := some ((cfg d).releaseDelay * 60000), cause := none }))

/-! ## The start of the work -/

/-- 1.3, 1.5, 2.2, 2.3, 3.3, 3.5 (R7, R12, R13, R25, R30, R45, R51, R82): how the cell starts its work. Staging selection
takes the first QUEUED lot; the load, the soak, the insertion start with ARM and the first START_PASS, the re-staging
ARM and the restore go out exactly when their conditions hold, and else the checks send nothing. An insertion start
opens the insertion at PASS 0 and starts the accumulators, flags, statistics, site mask, fed counts, pass record and
run-time carry afresh. The load and soak targets (R25, R45): the staging lot, and with none the open lot in a pass,
for the load only while the arm record is not ARMED for it; a check without a target sends nothing. A mark of a
blocked load or soak is cleared when the target becomes another lot: that reading, and when a target is last recorded
as gone, is the model's (log 14), as is what the checks read of them. And the model's choice (log 5): on a live
device `settle` runs three rounds of the named checks in the order written, and it is the identity otherwise;
`feedEval` (R55 to R57), `handlerIdle` and `idleEval` (R153), `queryEval` (R23, R41; log 22) are spelled, and the
reads `anyOpen`, `openLot` and `stagingLot` of the lot table. -/
def Obligations.TheCellStartsItsWork : Prop :=
  (∀ d : Device, ((∃ i l, lotAt d i = some l ∧ (l.opened = true ∨ l.state = .staging)) → stagingSelect d = d) ∧
    ((∀ i l, lotAt d i = some l → l.opened = false ∧ l.state ≠ .staging) →
      ((∀ i l, lotAt d i = some l → l.state ≠ .queued) → stagingSelect d = d) ∧
      ∀ i l, lotAt d i = some l → l.state = .queued →
        (∀ j m, lotAt d j = some m → m.state = .queued → j ≠ i → queueBefore l m = true) →
        stagingSelect d = putLot i (some { l with state := .staging }) d)) ∧
  (∀ (l : Lot) (d : Device), loadTarget d = some l → ∃ (p : Nat) (mark : Option Nat) (u : Device),
    p = (currentEntry l).program ∧ mark = (if d.tpt.target ≠ some l.id ∧ d.tpt.loadBlocked ≠ some l.id then none
      else d.tpt.loadBlocked) ∧
    u = { d with tpt := { d.tpt with loadBlocked := mark, target := some l.id } } ∧
    (d.tpt.loaded ≠ p → d.tpt.load = none → d.tpt.link = .up → d.tpt.arm.state ≠ .sent → mark ≠ some l.id →
      loadCheck d = { u with
        tpt := { u.tpt with
          load := some ⟨p, l.id, (cfg d).loadTimeout * 1000⟩, loaded := 0, arm := ⟨.unarmed, 0, 0, 0, 0⟩ }
        lines := { d.lines with testerOut := d.lines.testerOut ++ [.load p] } }) ∧
    (d.tpt.loaded = p ∨ d.tpt.load ≠ none ∨ d.tpt.link ≠ .up ∨ d.tpt.arm.state = .sent ∨ mark = some l.id →
      loadCheck d = u)) ∧
  (∀ (l : Lot) (d : Device), soakTarget d = some l → ∃ (c : TempClass) (mark : Option Nat) (u : Device) (need : Prop),
    c = (currentEntry l).temp ∧ mark = (if d.hpt.soakTarget ≠ some l.id ∧ d.hpt.soakBlocked ≠ some l.id then none
      else d.hpt.soakBlocked) ∧
    u = { d with hpt := { d.hpt with soakBlocked := mark, soakTarget := some l.id } } ∧
    (need ↔ d.hpt.soaked ≠ some c ∧ d.hpt.presence = .present ∧ d.hpt.kit = l.kit ∧ d.hpt.soakHeard = true ∧
      (l.state = .staging → d.tpm.grade = some .a ∨ d.tpm.grade = some .b) ∧ d.hpt.soak = none ∧
      d.hpt.kitChange = none ∧ mark ≠ some l.id) ∧
    (need → soakCheck d = { u with
      hpt := { u.hpt with soak := some ⟨c, l.id, (cfg d).soakTimeout * 60000⟩, soaked := none }
      lines := { d.lines with handlerOut := d.lines.handlerOut ++ [.setpoint c] } }) ∧
    (¬ need → soakCheck d = u)) ∧
  (∀ (i : Fin 8) (l : Lot) (d : Device), lotAt d i = some l → ∃ (hand test : Prop) (p : Nat) (on : BitVec 8),
    (hand ↔ d.hpt.presence = .present ∧ d.hpt.kit = l.kit ∧ (d.tpm.grade = some .a ∨ d.tpm.grade = some .b) ∧
      d.hpt.soaked = some (currentEntry l).temp) ∧
    p = (currentEntry l).program ∧
    (test ↔ d.tpt.loaded = p ∧ d.tpt.load = none ∧ d.tpt.link = .up ∧ d.tpt.arm.state ≠ .sent) ∧
    (∀ j : Fin 8, on.getLsbD j.val = true ↔ d.tpt.mask[j] = .enabled) ∧
    (stagingLot d = some (i, l) → l.opened = false →
      (¬ (hand ∧ test) → readyCheck d = d) ∧
      (hand → test → readyCheck d = { d with
        lmg := { d.lmg with lots := d.lmg.lots.set i (some { l with
          opened := true, step := some (.pass 0), passStarted := false, acc := .zero
          sticky := ⟨false, false, false, false, false⟩, stats := .zero, fedCounts := [] }) }
        tpt := { d.tpt with
          mask := Vector.replicate 8 .enabled, outstanding := [], armRefused := none, lastClosed := none
          silence := some 5000, arm := ⟨.sent, l.id, l.cur, p, 0xFF⟩ }
        hpt := { d.hpt with pass := none, passHandler := none, intake := 0 }
        tpm := { d.tpm with carry := 0 }
        lines := { d.lines with testerOut := d.lines.testerOut ++ [.arm l.id l.cur p 0xFF] } })) ∧
    (∀ k, stagingLot d = some (i, l) → l.opened = true → l.step = some (.pass k) → ∃ m u,
      m = { l with state := if k = 0 then .running else .retest, resume := none, passStarted := true } ∧
      u = putLot i (some m) d ∧
      (armedFor d l = true → ¬ hand → readyCheck d = d) ∧
      (armedFor d l = true → hand → l.passStarted = true → readyCheck d = u) ∧
      (armedFor d l = true → hand → l.passStarted = false → readyCheck d = { u with
        hpt := { d.hpt with pass := some k, passHandler := d.hpt.handler, intake := 0 }
        lines := { d.lines with handlerOut := d.lines.handlerOut ++
          [.startPass k (if k = 0 then l.qIn - l.acc.t1 else l.acc.pendingNow)] } }) ∧
      (armedFor d l = false → hand → test → d.tpt.armRefused ≠ some l.id → readyCheck d = { d with
        tpt := { d.tpt with arm := ⟨.sent, l.id, l.cur, p, on⟩ }
        lines := { d.lines with testerOut := d.lines.testerOut ++ [.arm l.id l.cur p on] } }) ∧
      (armedFor d l = false → ¬ hand ∨ ¬ test ∨ d.tpt.armRefused = some l.id → readyCheck d = d)) ∧
    (∀ k, openLot d = some (i, l) → l.state ≠ .staging → l.step = some (.pass k) →
      (armedFor d l = false → test → d.tpt.armRefused ≠ some l.id → restoreCheck d = { d with
        tpt := { d.tpt with arm := ⟨.sent, l.id, l.cur, p, on⟩ }
        lines := { d.lines with testerOut := d.lines.testerOut ++ [.arm l.id l.cur p on] } }) ∧
      (armedFor d l = true ∨ ¬ test ∨ d.tpt.armRefused = some l.id → restoreCheck d = d))) ∧
  (∀ d : Device,
    (∀ l : Lot, armedFor d l = true ↔
      d.tpt.arm.state = .armed ∧ d.tpt.arm.lot = l.id ∧ d.tpt.arm.insertion = l.cur) ∧
    (∀ i l, stagingLot d = some (i, l) → loadTarget d = some l ∧ soakTarget d = some l) ∧
    (stagingLot d = none → openLot d = none → loadTarget d = none ∧ soakTarget d = none) ∧
    (∀ i l, stagingLot d = none → openLot d = some (i, l) →
      ((∃ k, l.step = some (.pass k)) → soakTarget d = some l ∧
        loadTarget d = if armedFor d l then none else some l) ∧
      ((∀ k, l.step ≠ some (.pass k)) → loadTarget d = none ∧ soakTarget d = none)) ∧
    (loadTarget d = none → loadCheck d = { d with tpt := { d.tpt with target := none } }) ∧
    (soakTarget d = none → soakCheck d = { d with hpt := { d.hpt with soakTarget := none } }) ∧
    (stagingLot d = none → readyCheck d = d) ∧ (openLot d = none → restoreCheck d = d) ∧
    (∀ i l, stagingLot d = some (i, l) → l.opened = true → (∀ k, l.step ≠ some (.pass k)) → readyCheck d = d) ∧
    (∀ i l, openLot d = some (i, l) → l.state = .staging ∨ (∀ k, l.step ≠ some (.pass k)) → restoreCheck d = d)) ∧
  (∀ d : Device, ∃ round : Device → Device,
    (live d = true ↔ d.ctp.device = .joined ∧ d.ctp.hold = .running) ∧
    (∀ e, round e = queryEval (idleEval (feedEval (restoreCheck (readyCheck (soakCheck (loadCheck
      (gradeCPark (wonPark (needEval (stagingReport (stagingSelect e)))))))))))) ∧
    (live d = true → settle d = round (round (round d))) ∧ (live d = false → settle d = d)) ∧
  (∀ d : Device, ∃ (run : Bool) (idle : Prop), run = (feedGate d && (d.pins.ready || (cfg d).readyForced)) ∧
    feedEval d = { d with
      pins := { d.pins with feed := feedGate d }
      hpt := { d.hpt with
        effRun := run, capSpoiled := d.hpt.capSpoiled || (d.hpt.effRun && !run)
        capFirst := d.hpt.capFirst || (!d.hpt.effRun && run) } } ∧
    (idle ↔ dockedHandler d ≠ none ∧
      ∀ i l, lotAt d i = some l → l.opened = false ∧ l.state ≠ .staging ∧ (l.state = .queued → l.kit ≠ d.hpt.kit)) ∧
    (handlerIdle d = true ↔ idle) ∧
    (idle → idleEval d = { d with asu := { d.asu with
      idleTimer := some (d.asu.idleTimer.getD ((cfg d).idleRelease * 60000)) } }) ∧
    (¬ idle → idleEval d = { d with asu := { d.asu with idleTimer := none } }) ∧
    queryEval d = { d with
      tpt := { d.tpt with query := if d.tpt.link ≠ .up ∨ anyOpen d = true then some (d.tpt.query.getD 1000) else none }
      hpt := { d.hpt with query := if d.hpt.presence = .absent then some (d.hpt.query.getD 1000) else none } }) ∧
  (∀ d : Device,
    (anyOpen d = true ↔ ∃ i l, lotAt d i = some l ∧ l.opened = true) ∧
    (openLot d = none ↔ ∀ i l, lotAt d i = some l → l.opened = false) ∧
    (∀ i l, openLot d = some (i, l) → lotAt d i = some l ∧ l.opened = true) ∧
    (stagingLot d = none ↔ ∀ i l, lotAt d i = some l → l.state ≠ .staging) ∧
    (∀ i l, stagingLot d = some (i, l) → lotAt d i = some l ∧ l.state = .staging))

/-! ## The tester -/

/-- 2.2 (R26, R27): how a load in flight ends, with `u` the device once the message's frame check has passed (R22). And:
R29: LOADED and LOAD_FAIL with no load in flight. -/
def Obligations.LoadAnswers : Prop :=
  (∀ (ld : Load) (s : State), live s.dev = true → s.dev.tpt.load = some ld → ∃ u, u = testerHeard s.dev ∧
    (1 ≤ ld.program → ld.program ≤ 4095 → exec (.loaded ld.program) s = .next (moved s (settle
      { u with tpt := { u.tpt with load := none, loaded := ld.program, loadBlocked := none } }))) ∧
    (∀ p, 1 ≤ p → p ≤ 4095 → p ≠ ld.program → exec (.loaded p) s = .next (moved s (settle
      (raise .tester .corrected .loadMismatch (slotRef s.dev ld.lot)
        { u with tpt := { u.tpt with load := none, loaded := p, loadBlocked := some ld.lot } })))) ∧
    (∀ code, code ≤ 255 → exec (.loadFail code) s = .next (moved s (settle
      (raise .tester .corrected .loadFail (slotRef s.dev ld.lot)
        { u with tpt := { u.tpt with load := none, loaded := 0, loadBlocked := some ld.lot } })))) ∧
    exec .loadTimerExpiry s = .next (moved s (settle
      (raise .tester .corrected .loadTimeout (slotRef s.dev ld.lot)
        { s.dev with tpt := { s.dev.tpt with load := none, loaded := 0, loadBlocked := some ld.lot } })))) ∧
  (∀ s : State, live s.dev = true → s.dev.tpt.load = none → ∃ u, u = testerHeard s.dev ∧
    (∀ p v, 1 ≤ p → p ≤ 4095 →
      v = raise .tester .note .unexpected 255 { u with tpt := { u.tpt with loaded := p } } →
      (s.dev.tpt.arm.state = .unarmed ∨ s.dev.tpt.arm.program = p →
        exec (.loaded p) s = .next (moved s (settle v))) ∧
      (s.dev.tpt.arm.state ≠ .unarmed → s.dev.tpt.arm.program ≠ p →
        exec (.loaded p) s = .next (moved s (settle (clearArm
          (raise .tester .corrected .loadMismatch (slotRef s.dev s.dev.tpt.arm.lot) v)))))) ∧
    (∀ code, code ≤ 255 →
      exec (.loadFail code) s = .next (moved s (settle (raise .tester .note .unexpected 255 u)))))

/-- 2.3 (R31): the answers to an outstanding ARM, and ARMED and ARM_FAIL where none is outstanding. `armTaken` sets
ARMED, takes the sites off in the mask sent from DISABLING to DISABLED and sends the MASK that is owed. And: 2.3
(R31): an ARMED for the open insertion arms the record and disables exactly the DISABLING sites that the mask sent
leaves off; the other sites are as before. And: 2.4 (R33): MASK_OK takes the oldest outstanding entry, and each
DISABLING site it names becomes DISABLED; with nothing outstanding it is unexpected. And: 2.3, 2.4 (R31, R32): where
a site became DISABLING after the ARM was sent, so that its mask still enables it, and the link is UP, `armTaken`
sends MASK with the ENABLED set and adds an entry of those sites to the outstanding list; otherwise it sends nothing
and the list is as before. `slotRef` is the slot of the lot with the ID, or 255 (R26). -/
def Obligations.ArmAndMaskAnswers : Prop :=
  (∀ s : State, live s.dev = true → ∃ u, u = testerHeard s.dev ∧
    (∀ i l, s.dev.tpt.arm.state = .sent → openLot s.dev = some (i, l) → s.dev.tpt.arm.lot = l.id →
      s.dev.tpt.arm.insertion = l.cur → exec .armed s = .next (moved s (settle (armTaken u)))) ∧
    (s.dev.tpt.arm.state = .sent → s.dev.tpt.link = .up →
      (∀ i l, openLot s.dev = some (i, l) → s.dev.tpt.arm.lot ≠ l.id ∨ s.dev.tpt.arm.insertion ≠ l.cur) →
      exec .armed s = .next (moved s (settle
        (raise .tester .note .unexpected 255 (clearArm (sendTester .halt u)))))) ∧
    (s.dev.tpt.arm.state ≠ .sent →
      exec .armed s = .next (moved s (settle (raise .tester .note .unexpected 255 u))) ∧
      ∀ code, code ≤ 255 →
        exec (.armFail code) s = .next (moved s (settle (raise .tester .note .unexpected 255 u)))) ∧
    (s.dev.tpt.arm.state = .sent → ∀ code, code ≤ 255 →
      exec (.armFail code) s = .next (moved s (settle
        (raise .tester .corrected .armFail (slotRef s.dev s.dev.tpt.arm.lot)
          { u with tpt := { u.tpt with
            arm := ⟨.unarmed, 0, 0, 0, 0⟩, armRefused := some s.dev.tpt.arm.lot } }))))) ∧
  (∀ d : Device, (armTaken d).tpt.arm = { d.tpt.arm with state := .armed } ∧
    ∀ k : Fin 8, (armTaken d).tpt.mask[k] =
      if d.tpt.mask[k] = .disabling ∧ d.tpt.arm.mask.getLsbD k.val = false then .disabled else d.tpt.mask[k]) ∧
  (∀ s : State, live s.dev = true → ∃ u, u = testerHeard s.dev ∧
    (s.dev.tpt.outstanding = [] →
      exec .maskOk s = .next (moved s (settle (raise .tester .note .unexpected 255 u)))) ∧
    (∀ e rest, s.dev.tpt.outstanding = e :: rest →
      exec .maskOk s = .next (moved s (settle { u with tpt := { u.tpt with
        outstanding := rest
        mask := Vector.ofFn fun k : Fin 8 =>
          if u.tpt.mask[k] = .disabling ∧ e.getLsbD k.val = true then .disabled else u.tpt.mask[k] } })))) ∧
  (∀ d : Device, ∃ (e : Device) (owed : Prop) (on off : BitVec 8),
    e = { d with tpt := { d.tpt with
      arm := { d.tpt.arm with state := .armed }
      mask := Vector.ofFn fun k : Fin 8 =>
        if d.tpt.mask[k] = .disabling ∧ d.tpt.arm.mask.getLsbD k.val = false then .disabled else d.tpt.mask[k] } } ∧
    (owed ↔ ∃ k : Fin 8, d.tpt.mask[k] = .disabling ∧ d.tpt.arm.mask.getLsbD k.val = true) ∧
    (∀ k : Fin 8, on.getLsbD k.val = true ↔ d.tpt.mask[k] = .enabled) ∧
    (∀ k : Fin 8, off.getLsbD k.val = true ↔ d.tpt.mask[k] = .disabling ∧ d.tpt.arm.mask.getLsbD k.val = true ∧
      ∀ x ∈ d.tpt.outstanding, x.getLsbD k.val = false) ∧
    (owed → d.tpt.link = .up → armTaken d = { e with
      tpt := { e.tpt with outstanding := d.tpt.outstanding ++ [off] }
      lines := { d.lines with testerOut := d.lines.testerOut ++ [.mask on] } }) ∧
    (¬ owed ∨ d.tpt.link ≠ .up → armTaken d = e) ∧
    clearArm d = { d with tpt := { d.tpt with arm := ⟨.unarmed, 0, 0, 0, 0⟩ } } ∧
    ∀ id, ((∀ i l, lotAt d i = some l → l.id ≠ id) → slotRef d id = 255) ∧
      ∀ i l, lotAt d i = some l → l.id = id → (∀ j m, lotAt d j = some m → m.id = id → i ≤ j) → slotRef d id = i.val)

/-- R34: the touchdowns refused whole. -/
def Obligations.TouchdownIsRefusedWhole : Prop :=
  ∀ (repeats entryCount : Nat) (entries : List (Nat × Nat)) (s : State), live s.dev = true →
    (entries = [] ∨ 8 < entryCount ∨ ¬ (entries.map (·.1)).Nodup ∨ (∃ e ∈ entries, 7 < e.1) ∨
      (∃ e ∈ entries, 15 < e.2) ∨ repeats = 0 ∨ 16 < repeats ∨ entries.length ≠ entryCount) →
    exec (.touchdown repeats entryCount entries) s = .next (moved s (settle
      (raise .tester .note .badMessage 255 (testerHeard s.dev)))) ∧
    (raise .tester .note .badMessage 255 (testerHeard s.dev)).lmg = s.dev.lmg

/-- 2.5 (R35, R36): a touchdown in its ranges: its results go to the open insertion one by one, touchdown after
touchdown; else to the last closed insertion, as late results; else it is refused as unarmed. And: 2.6, 2.1 (R37,
R24): IDLE, the drain timer and the tester's going out of service end the drain: the arm record is cleared, the drain
timer stops and the open insertion closes. An IDLE with no drain running does nothing but restart timers. And: 2.5,
3.5, 4.6 (R36, R52, R73, R74): `touchResult` drops the result of a DISABLED site with the MASK_DROP flag alone, and
any other adds 1 to the intake count and goes to RAU; `lateResult` sets the LATE flag and mark of the lot and raises
the LATE note, and counts nothing. -/
def Obligations.TouchdownsAndDrains : Prop :=
  (∀ (repeats : Nat) (entries : List (Nat × Nat)) (s : State), live s.dev = true →
    1 ≤ entries.length → entries.length ≤ 8 → 1 ≤ repeats → repeats ≤ 16 → (entries.map (·.1)).Nodup →
    (∀ e ∈ entries, e.1 ≤ 7 ∧ e.2 ≤ 15) → ∃ u results, u = testerHeard s.dev ∧
      results = (List.replicate repeats (entries.map fun e => (toSite e.1, toBin e.2))).flatten ∧
      (∀ i l, openLot s.dev = some (i, l) → exec (.touchdown repeats entries.length entries) s =
        .next (moved s (settle (results.foldl (fun d r => touchResult i r.1 r.2 d) u)))) ∧
      (∀ i, openLot s.dev = none → lastClosedSlot s.dev = some i →
        exec (.touchdown repeats entries.length entries) s =
          .next (moved s (settle (results.foldl (fun d _ => lateResult i d) u)))) ∧
      (openLot s.dev = none → lastClosedSlot s.dev = none →
        exec (.touchdown repeats entries.length entries) s =
          .next (moved s (settle (raise .tester .note .resultUnarmed 255 u))))) ∧
  (∀ s : State, live s.dev = true → ∃ u, u = testerHeard s.dev ∧
    (s.dev.tpt.drain = none → exec .idle s = .next (moved s (settle u))) ∧
    (∀ i l n, s.dev.tpt.drain = some n → openLot s.dev = some (i, l) →
      exec .idle s = .next (moved s (settle (closeInsertion i
        { u with tpt := { u.tpt with drain := none, arm := ⟨.unarmed, 0, 0, 0, 0⟩ } }))) ∧
      exec .drainTimerExpiry s = .next (moved s (settle (closeInsertion i
        { s.dev with tpt := { s.dev.tpt with drain := none, arm := ⟨.unarmed, 0, 0, 0, 0⟩ } }))) ∧
      (s.dev.tpt.link ≠ .down → s.dev.tpt.link ≠ .silent → ∃ v,
        v = raise .tester .uncorrected .testerDown i.val u ∧
        exec .down s = .next (moved s (settle (closeInsertion i { v with tpt := { v.tpt with
          link := .down, loaded := 0, load := none, arm := ⟨.unarmed, 0, 0, 0, 0⟩, outstanding := []
          silence := none, drain := none } })))) ∧
      (s.dev.tpt.silence ≠ none → ∃ v, v = raise .tester .uncorrected .testerDown i.val s.dev ∧
        exec .silenceTimerExpiry s = .next (moved s (settle (closeInsertion i { v with tpt := { v.tpt with
          link := .silent, loaded := 0, load := none, arm := ⟨.unarmed, 0, 0, 0, 0⟩, outstanding := []
          silence := none, drain := none } })))))) ∧
  (∀ (i k : Fin 8) (b : Fin 16) (l : Lot) (d : Device), lotAt d i = some l →
    (d.tpt.mask[k] = .disabled → touchResult i k b d =
      putLot i (some { l with sticky := { l.sticky with maskDrop := true } }) d) ∧
    (d.tpt.mask[k] ≠ .disabled → touchResult i k b d = rauResult i k b
      { d with hpt := { d.hpt with intake := min 1048575 (d.hpt.intake + 1) } }) ∧
    lateResult i d = raise .accounting .note .late i.val (putLot i (some { l with
      sticky := { l.sticky with late := true }, marks := { l.marks with late := true } }) d))

/-- 2.1 (R24): DOWN on a link that is not DOWN or SILENT, and the silence timer, with no drain running: TESTER_DOWN,
UNCORRECTED with the open lot's slot or a NOTE with 255, and the tester's state cleared; DOWN on a link that is DOWN
or SILENT raises the fault alone (log 28). And: 2.1 (R23): UP brings the link up with the program it reports, and
starts the silence timer for an open insertion; a running QUERY second starts again at that message; on a link that
is UP it only restarts timers while it agrees or a load is in flight, and otherwise it is a mismatch. -/
def Obligations.TesterLinkChanges : Prop :=
  (∀ s : State, live s.dev = true → ∃ (u : Device) (v : Device → Device), u = testerHeard s.dev ∧
    (∀ d, v d = match openLot s.dev with
      | some (i, _) => raise .tester .uncorrected .testerDown i.val d
      | none => raise .tester .note .testerDown 255 d) ∧
    (s.dev.tpt.link = .down ∨ s.dev.tpt.link = .silent → exec .down s = .next (moved s (settle (v u)))) ∧
    (s.dev.tpt.drain = none → s.dev.tpt.link ≠ .down → s.dev.tpt.link ≠ .silent →
      exec .down s = .next (moved s (settle { v u with tpt := { (v u).tpt with
        link := .down, loaded := 0, load := none, arm := ⟨.unarmed, 0, 0, 0, 0⟩, outstanding := []
        silence := none } }))) ∧
    (s.dev.tpt.drain = none → s.dev.tpt.silence ≠ none →
      exec .silenceTimerExpiry s = .next (moved s (settle { v s.dev with tpt := { (v s.dev).tpt with
        link := .silent, loaded := 0, load := none, arm := ⟨.unarmed, 0, 0, 0, 0⟩, outstanding := []
        silence := none } })))) ∧
  (∀ (p : Nat) (s : State), live s.dev = true → p ≤ 4095 → ∃ u, u = testerHeard s.dev ∧
    (s.dev.tpt.link ≠ .up → exec (.up p) s = .next (moved s (settle { u with tpt := { u.tpt with
      link := .up, loaded := p, silence := if anyOpen s.dev then some 5000 else none
      query := s.dev.tpt.query.map fun _ => 1000 } }))) ∧
    (s.dev.tpt.link = .up → (s.dev.tpt.load ≠ none ∨ s.dev.tpt.loaded = p) →
      exec (.up p) s = .next (moved s (settle u))) ∧
    (s.dev.tpt.link = .up → s.dev.tpt.load = none → s.dev.tpt.loaded ≠ p → ∃ v,
      v = raise .tester .corrected .loadMismatch ((openLot s.dev).elim 255 fun e => e.1.val)
        { u with tpt := { u.tpt with loaded := p } } ∧
      exec (.up p) s = .next (moved s (settle
        (if s.dev.tpt.arm.state ≠ .unarmed ∧ s.dev.tpt.arm.program ≠ p then clearArm v else v)))))

/-- 2.1, 3.1 (R22, R23, R40, R41): a message that fails is a BAD_MESSAGE note, after the timers it restarts where it
passed its frame check; the query intervals send QUERY and start again. And: 3.2 (R41): a message other than HELLO
and BYE with no handler PRESENT is dropped, with a NOT_DOCKED note but in LEAVING; BYE likewise in EMPTY and ABSENT.
And: 2.1, 3.1, 7.5, 11.2 (R22, R40, R125, R197, with logs 6, 7): a field out of its range makes any message a
BAD_MESSAGE; and nothing is taken from the three lines, and no timer expires, in CONFIG or while a reset is held.
And: 2.1, 3.1, 3.2 (R22 to R24, R40, R43): `testerHeard` starts a running silence timer again at 5 s and, while the
link is UP, a running QUERY second; `handlerHeard` starts the absence timer again at 3 s while the handler is
PRESENT; nothing else changes. `handlerRef` is the docked handler, else the ID the message carried, else that of the
dock record, else 255 (R40; the model's reading, log 11). -/
def Obligations.RefusedMessagesAndQueries : Prop :=
  (∀ s : State, live s.dev = true →
    exec (.testerBadMessage true) s = .next (moved s (settle
      (raise .tester .note .badMessage 255 (testerHeard s.dev)))) ∧
    exec (.testerBadMessage false) s = .next (moved s (settle (raise .tester .note .badMessage 255 s.dev))) ∧
    (∀ carried, exec (.handlerBadMessage true carried) s = .next (moved s (settle
      (raise .handler .note .badMessage (handlerRef carried s.dev) (handlerHeard s.dev))))) ∧
    (∀ carried, exec (.handlerBadMessage false carried) s = .next (moved s (settle
      (raise .handler .note .badMessage (handlerRef carried s.dev) s.dev)))) ∧
    (s.dev.tpt.query ≠ none → exec .testerQueryTimer s = .next (moved s (settle { s.dev with
      tpt := { s.dev.tpt with query := some 1000 }
      lines := { s.dev.lines with testerOut := s.dev.lines.testerOut ++ [.query] } }))) ∧
    (s.dev.hpt.query ≠ none → exec .handlerQueryTimer s = .next (moved s (settle { s.dev with
      hpt := { s.dev.hpt with query := some 1000 }
      lines := { s.dev.lines with handlerOut := s.dev.lines.handlerOut ++ [.query] } })))) ∧
  (∀ (c : Instr) (s : State), live s.dev = true → s.dev.hpt.presence ≠ .present →
    ((∃ n, n ≤ 3 ∧ c = .state n) ∨ (∃ n, 1 ≤ n ∧ n ≤ 3 ∧ c = .soaked n) ∨ (∃ n, n ≤ 255 ∧ c = .soakFail n) ∨
      (∃ n, 1 ≤ n ∧ n ≤ 255 ∧ c = .kitDone n) ∨ (∃ n, n ≤ 255 ∧ c = .kitFail n) ∨
      (∃ n b, n ≤ 32767 ∧ c = .index n b) ∨ (∃ n, n ≤ 7 ∧ c = .unitLost n) ∨
      (∃ n m, n ≤ 3 ∧ m ≤ 1048575 ∧ c = .passEnd n m) ∨ (c = .bye ∧ s.dev.hpt.leaving = none)) →
    exec c s = .next (moved s (settle (if s.dev.hpt.presence = .leaving then s.dev
      else raise .handler .note .notDocked (handlerRef none s.dev) s.dev)))) ∧
  (∀ (c : Instr) (s : State), live s.dev = true →
    ((∃ n, (n = 0 ∨ 4095 < n) ∧ c = .loaded n) ∨ (∃ n, 255 < n ∧ (c = .loadFail n ∨ c = .armFail n)) ∨
      (∃ n, 4095 < n ∧ c = .up n) → exec c s = exec (.testerBadMessage true) s) ∧
    ((∃ n, 3 < n ∧ c = .state n) ∨ (∃ n, (n = 0 ∨ 3 < n) ∧ c = .soaked n) ∨ (∃ n, 255 < n ∧ c = .soakFail n) ∨
      (∃ n, (n = 0 ∨ 255 < n) ∧ c = .kitDone n) ∨ (∃ n, 255 < n ∧ c = .kitFail n) ∨
      (∃ n b, 32767 < n ∧ c = .index n b) ∨ (∃ n, 7 < n ∧ c = .unitLost n) ∨
      (∃ n m, (3 < n ∨ 1048575 < m) ∧ c = .passEnd n m) → exec c s = exec (.handlerBadMessage true none) s) ∧
    ∀ h k, h = 0 ∨ 48 < h ∨ 255 < k → exec (.hello h k) s = exec (.handlerBadMessage true (some h)) s) ∧
  (∀ (c : Instr) (s : State), lineOrTimerEvent c = true → live s.dev = false → exec c s = .next (moved s s.dev)) ∧
  (∀ d : Device,
    testerHeard d = { d with tpt := { d.tpt with
      silence := d.tpt.silence.map fun _ => 5000
      query := if d.tpt.link = .up then d.tpt.query.map fun _ => 1000 else d.tpt.query } } ∧
    (d.hpt.presence = .present → handlerHeard d = { d with hpt := { d.hpt with absence := some 3000 } }) ∧
    (d.hpt.presence ≠ .present → handlerHeard d = d) ∧
    dockedHandler d = (if d.hpt.presence = .present ∨ d.hpt.presence = .absent then d.hpt.handler else none) ∧
    (∀ c h, dockedHandler d = some h → handlerRef c d = h) ∧
    (∀ h, dockedHandler d = none → handlerRef (some h) d = h) ∧
    (dockedHandler d = none → handlerRef none d = d.hpt.handler.getD 255))

/-! ## The handler -/

/-- 3.2, 6.1, 8.2 (R42, R100, R142): a HELLO at an empty dock docks the handler: dock record PRESENT, absence timer 3 s,
soak state and index capture afresh, entry DOCKED here, DOCK offered, a new sample period with the entry's grade or
A. A HELLO that repeats the dock record only restarts the absence timer; a return is PRESENT again; another handler
or another kit is a change of dock, with the old handler's entry UNKNOWN and its idle timer stopped (R153) and the
open insertion noted and re-staged; another handler in LEAVING docks as at an empty dock. And: 3.2 (R43, R44): BYE
and the absence timer make a PRESENT handler ABSENT, with the fault UNCORRECTED while an insertion is open; BYE and
the leaving timer end LEAVING. And: 3.2 (R42): `dockChanged` raises DOCK_CHANGED while an insertion is open and
re-stages a lot in RUNNING or RETEST. And: 8.5 (R151): `ownDockNeed` releases the target of a need in WON with PARK
where another handler docked, removes the CLAIM of a need in CLAIMING whose target docked, and re-evaluates: SEEKING
where the need still exists, IDLE otherwise; any other need waits for the checks. And: 8.2 (R143): `parkEntry` offers
PARK, frees the entry and appends the handler to the own parked list, which keeps the last 4. And: 6.1, 6.7 (R100,
R110): `tpmDock` starts a period for the handler with its grade, all counts 0 and the last sample NONE; `tpmGone`
stops it and clears the grade. And: 3.2 (R44): while the leaving timer still runs for a departed handler and the
presence is no longer LEAVING, the first BYE stops that timer without a fault (restarting the absence timer as any
message does, R40), and its expiry stops it and changes nothing else. -/
def Obligations.HandlerComesAndGoes : Prop :=
  (∀ (h k : Nat) (s : State), live s.dev = true → 1 ≤ h → h ≤ 48 → k ≤ 255 →
    (s.dev.hpt.presence = .empty → ∃ g u, g = (entryAt s.dev h).grade.getD .a ∧
      u = { s.dev with
        hpt := { s.dev.hpt with
          presence := .present, handler := some h, kit := k, absence := some 3000, soaked := none
          soakHeard := false, soak := none, kitChange := none, capAcc := 0, capFirst := false
          capSpoiled := true } } ∧
      exec (.hello h k) s = .next (moved s (settle (ownDockNeed h (setTpm (tpmDock h g)
        (offer (.dock h k (some g)) (setEntry h ⟨.docked, some (ownStation s.dev), k, some g, none, none, none⟩
          u))))))) ∧
    (s.dev.hpt.presence = .present → s.dev.hpt.handler = some h → s.dev.hpt.kit = k →
      exec (.hello h k) s = .next (moved s (settle
        { s.dev with hpt := { s.dev.hpt with absence := some 3000 } }))) ∧
    (s.dev.hpt.presence = .absent → s.dev.hpt.handler = some h → s.dev.hpt.kit = k →
      exec (.hello h k) s = .next (moved s (settle { s.dev with
        hpt := { s.dev.hpt with
          presence := .present, absence := some 3000, soaked := none
          soakHeard := false, soak := none, kitChange := none, capAcc := 0, capFirst := false
          capSpoiled := true } }))) ∧
    (s.dev.hpt.presence = .leaving → s.dev.hpt.handler = some h →
      exec (.hello h k) s = .next (moved s (settle (raise .handler .note .unexpected h s.dev)))) ∧
    (∀ o, s.dev.hpt.handler = some o →
      (s.dev.hpt.presence = .leaving ∧ o ≠ h) ∨ ((s.dev.hpt.presence = .present ∨ s.dev.hpt.presence = .absent) ∧
        ¬ (o = h ∧ s.dev.hpt.kit = k)) → ∃ (old u v : Device) (g : Grade),
      old = (if s.dev.hpt.presence = .leaving then { s.dev with tpm := tpmGone s.dev.tpm } else s.dev) ∧
      u = { old with
        hpt := { s.dev.hpt with
          presence := .present, handler := some h, kit := k, absence := some 3000, soaked := none
          soakHeard := false, soak := none, kitChange := none, capAcc := 0, capFirst := false
          capSpoiled := true } } ∧
      v = (if s.dev.hpt.presence = .leaving ∨ o = h then u else stopIdle
        (setEntry o ⟨.unknown, none, (entryAt u o).kit, (entryAt u o).grade, none, none, none⟩ u)) ∧
      (∀ d, stopIdle d = { d with asu := { d.asu with idleTimer := none } }) ∧
      g = (entryAt v h).grade.getD .a ∧ ∃ w,
      w = ownDockNeed h (setTpm (tpmDock h g) (offer (.dock h k (some g))
        (setEntry h ⟨.docked, some (ownStation s.dev), k, some g, none, none, none⟩ v))) ∧
      exec (.hello h k) s = .next (moved s (settle
        (if s.dev.hpt.presence = .leaving then w else dockChanged h w))))) ∧
  (∀ s : State, live s.dev = true →
    (∀ h, s.dev.hpt.presence = .present → s.dev.hpt.handler = some h → s.dev.hpt.leaving = none → ∃ v,
      v = raise .handler (if anyOpen s.dev then .uncorrected else .note) .handlerAbsent h
        { s.dev with hpt := { s.dev.hpt with
          presence := .absent, absence := none, soaked := none, soak := none, kitChange := none
          capAcc := 0, capFirst := false, capSpoiled := true } } ∧
      exec .bye s = .next (moved s (settle v)) ∧
      (s.dev.hpt.absence ≠ none → exec .absenceTimerExpiry s = .next (moved s (settle v)))) ∧
    (s.dev.hpt.presence = .leaving → s.dev.hpt.leaving ≠ none → ∃ v,
      v = { s.dev with
        hpt := { s.dev.hpt with presence := .empty, handler := none, kit := 0, leaving := none }
        tpm := { s.dev.tpm with
          sampled := none, period := none, results := 0, gateOn := 0, jams := 0
          grade := none, degrade := 0, recover := 0 } } ∧
      exec .bye s = .next (moved s (settle v)) ∧ exec .leavingTimerExpiry s = .next (moved s (settle v)))) ∧
  (∀ (h : Nat) (d : Device), (openLot d = none → dockChanged h d = d) ∧
    ∀ i l, openLot d = some (i, l) → ∃ u, u = raise .handler .note .dockChanged h d ∧
      (l.state = .running ∨ l.state = .retest → dockChanged h d = restage i u) ∧
      (l.state ≠ .running → l.state ≠ .retest → dockChanged h d = u)) ∧
  (∀ (h : Nat) (d : Device),
    (∀ t, d.asu.need.state = .won → d.asu.need.target = some t → ownDockNeed h d = needAfterDock
      (if t = h then d else parkEntry t (entryAt d t).kit (entryAt d t).grade d)) ∧
    (d.asu.need.state = .claiming → d.asu.need.target = some h →
      ownDockNeed h d = needAfterDock (removeClaim d)) ∧
    (d.asu.need.state ≠ .won → d.asu.need.state ≠ .claiming ∨ d.asu.need.target ≠ some h →
      ownDockNeed h d = d)) ∧
  (∀ d : Device, ∃ needed : Prop,
    (needed ↔ ∃ i l, stagingLot d = some (i, l) ∧
      (dockedHandler d = none ∨ d.hpt.kit ≠ l.kit ∨ d.tpm.grade = some .c)) ∧
    (needed → needAfterDock d = toSeeking d) ∧ (¬ needed → needAfterDock d = setNeed Need.idle d)) ∧
  (∀ (h k : Nat) (g : Option Grade) (d : Device), parkEntry h k g d = joinParked h
      (setEntry h ⟨.free, none, k, g, none, some (ownStation d), none⟩ (offer (.park h k g) d)) ∧
    ∃ l, l = d.asu.parked.filter (· ≠ h) ++ [h] ∧
      joinParked h d = { d with asu := { d.asu with parked := l.drop (l.length - 4) } }) ∧
  (∀ (h : Nat) (g : Grade) (d : Device),
    setTpm (tpmDock h g) d = { d with tpm := { d.tpm with
      sampled := some h, period := some 0, results := 0, gateOn := 0, jams := 0
      grade := some g, degrade := 0, recover := 0, last := ⟨.none, none, 0, 0, 0, none, 0⟩ } } ∧
    tpmGone d.tpm = { d.tpm with
      sampled := none, period := none, results := 0, gateOn := 0, jams := 0
      grade := none, degrade := 0, recover := 0 }) ∧
  (∀ s : State, live s.dev = true → s.dev.hpt.presence ≠ .leaving → s.dev.hpt.leaving ≠ none →
    exec .bye s = .next (moved s (settle { s.dev with hpt := { s.dev.hpt with
      absence := if s.dev.hpt.presence = .present then some 3000 else s.dev.hpt.absence
      leaving := none } })) ∧
    exec .leavingTimerExpiry s = .next (moved s (settle { s.dev with hpt := { s.dev.hpt with leaving := none } })))

/-- 3.3 (R46, R47): STATE, SOAKED and SOAK_FAIL from a PRESENT handler, and the soak timer. And: 3.4, 8.6 (R49, R50,
R152): KIT_DONE and KIT_FAIL from a PRESENT handler, and the kit change timer. And: 8.2, 8.6 (R142, R152):
`reportKit` takes the kit into the docked handler's entry and offers a DOCK with it; `barKitChange` sets the
kit-change-barred mark of a need in KIT_CHANGE. How that need then moves is in OffersAndTheNeed. An unexpected
KIT_DONE is reported to ASU also where it repeats the recorded kit (the model's choice, log 43). -/
def Obligations.SoakAndKitChangeReports : Prop :=
  (∀ s : State, live s.dev = true → s.dev.hpt.presence = .present → ∃ u, u = handlerHeard s.dev ∧
    (∀ temp, temp ≤ 3 → exec (.state temp) s = .next (moved s (settle { u with hpt := { u.hpt with
      soakHeard := true, soaked := if s.dev.hpt.soak = none then tempOfCode temp else s.dev.hpt.soaked } }))) ∧
    (∀ temp, 1 ≤ temp → temp ≤ 3 →
      (s.dev.hpt.soak = none → exec (.soaked temp) s = .next (moved s (settle { u with hpt := { u.hpt with
        soakHeard := true, soaked := tempOfCode temp } }))) ∧
      (∀ k, s.dev.hpt.soak = some k → tempOfCode temp = some k.cls →
        exec (.soaked temp) s = .next (moved s (settle { u with hpt := { u.hpt with
          soakHeard := true, soaked := some k.cls, soak := none
          soakBlocked := if s.dev.hpt.soakBlocked = some k.lot then none else s.dev.hpt.soakBlocked } }))) ∧
      (∀ k, s.dev.hpt.soak = some k → tempOfCode temp ≠ some k.cls →
        exec (.soaked temp) s = .next (moved s (settle
          (raise .handler .note .unexpected (handlerRef none s.dev)
            { u with hpt := { u.hpt with soakHeard := true } }))))) ∧
    (∀ k, s.dev.hpt.soak = some k →
      (∀ code, code ≤ 255 → exec (.soakFail code) s = .next (moved s (settle
        (raise .handler .corrected .soakFail (handlerRef none s.dev)
          { u with hpt := { u.hpt with soaked := none, soak := none, soakBlocked := some k.lot } })))) ∧
      exec .soakTimerExpiry s = .next (moved s (settle
        (raise .handler .corrected .soakFail (handlerRef none s.dev)
          { s.dev with hpt := { s.dev.hpt with soaked := none, soak := none, soakBlocked := some k.lot } })))) ∧
    (s.dev.hpt.soak = none → ∀ code, code ≤ 255 → exec (.soakFail code) s = .next (moved s (settle
      (raise .handler .note .unexpected (handlerRef none s.dev) u))))) ∧
  (∀ s : State, live s.dev = true → s.dev.hpt.presence = .present → ∃ u, u = handlerHeard s.dev ∧
    (∀ c k, s.dev.hpt.kitChange = some c → 1 ≤ k → k ≤ 255 → ∃ v,
      v = { u with hpt := { u.hpt with kitChange := none, kit := k } } ∧
      (k = c.kit → exec (.kitDone k) s = .next (moved s (settle (reportKit k v)))) ∧
      (k ≠ c.kit → exec (.kitDone k) s = .next (moved s (settle (reportKit k (barKitChange
        (raise .handler .corrected .kitMismatch (handlerRef none s.dev) v))))))) ∧
    (∀ c, s.dev.hpt.kitChange = some c →
      (∀ code, code ≤ 255 → exec (.kitFail code) s = .next (moved s (settle (barKitChange
        (raise .handler .corrected .kitFail (handlerRef none s.dev)
          { u with hpt := { u.hpt with kitChange := none, kit := 0 } }))))) ∧
      exec .kitChangeTimerExpiry s = .next (moved s (settle (barKitChange
        (raise .handler .corrected .kitTimeout (handlerRef none s.dev)
          { s.dev with hpt := { s.dev.hpt with kitChange := none, kit := 0 } }))))) ∧
    (s.dev.hpt.kitChange = none → ∃ v, v = raise .handler .note .unexpected (handlerRef none s.dev) u ∧
      (∀ code, code ≤ 255 → exec (.kitFail code) s = .next (moved s (settle v))) ∧
      (∀ k, 1 ≤ k → k ≤ 255 →
        (anyOpen s.dev = true → exec (.kitDone k) s = .next (moved s (settle v))) ∧
        (anyOpen s.dev = false → exec (.kitDone k) s = .next (moved s (settle (reportKit k
          { v with hpt := { v.hpt with kit := k, soaked := none } }))))))) ∧
  (∀ (k : Nat) (d : Device),
    (dockedHandler d = none → reportKit k d = d) ∧
    (∀ h, dockedHandler d = some h → reportKit k d =
      offer (.dock h k (entryAt d h).grade) (setEntry h { entryAt d h with kit := k } d)) ∧
    (d.asu.need.state = .kitChange → barKitChange d = setNeed { d.asu.need with barred := true } d) ∧
    (d.asu.need.state ≠ .kitChange → barKitChange d = d))

/-- 3.7, 6.2 (R57, R104): an INDEX record adds to the accumulator; with the flag clear the interval is complete and is
judged: neither spoiled nor first, it is a jam at or above the jam threshold. And: 3.5 (R54): UNIT_LOST is a result
of bin 0 for the open insertion, a late one for the last closed, or unexpected. -/
def Obligations.IndexRecordsAndLostUnits : Prop :=
  (∀ (v : Nat) (s : State), live s.dev = true → s.dev.hpt.presence = .present → v ≤ 32767 →
    ∃ u a, u = handlerHeard s.dev ∧ a = min 16777215 (s.dev.hpt.capAcc + v) ∧
      exec (.index v true) s = .next (moved s (settle { u with hpt := { u.hpt with capAcc := a } })) ∧
      exec (.index v false) s = .next (moved s (settle { u with
        hpt := { u.hpt with capAcc := 0, capFirst := false, capSpoiled := !s.dev.hpt.effRun }
        tpm := { s.dev.tpm with
          jams := if s.dev.hpt.capSpoiled = false ∧ s.dev.hpt.capFirst = false ∧
            (cfg s.dev).jamThreshold * 100 ≤ a then
            min 255 (s.dev.tpm.jams + 1)
          else s.dev.tpm.jams } }))) ∧
  (∀ (site : Nat) (s : State), live s.dev = true → s.dev.hpt.presence = .present → site ≤ 7 →
    ∃ u, u = handlerHeard s.dev ∧
      (∀ i l, openLot s.dev = some (i, l) → exec (.unitLost site) s = .next (moved s (settle
        (rauResult i (toSite site) 0
          { u with hpt := { u.hpt with intake := min 1048575 (s.dev.hpt.intake + 1) } })))) ∧
      (∀ i, openLot s.dev = none → lastClosedSlot s.dev = some i →
        exec (.unitLost site) s = .next (moved s (settle (lateResult i u)))) ∧
      (openLot s.dev = none → lastClosedSlot s.dev = none →
        exec (.unitLost site) s = .next (moved s (settle
          (raise .handler .note .unexpected (handlerRef none s.dev) u)))))

/-- 3.5, 1.5, 4.3 (R53, R15, R68): a PASS_END of the current pass from the handler last used for it stores its fed count,
moves the pass boundary, notes a fed count other than the intake, and lets the lot advance; any other is a
BAD_MESSAGE note. And: 1.5 (R15): after the pass boundary the step becomes PASS k + 1 while units are owed and the
limit is not reached (RETEST k + 1 with START_PASS from RUNNING or RETEST), otherwise DRAIN with the close drain
(R37); a HELD lot takes it in its resume step, and its drain starts like any other (for a resume step STAGING, log
32). -/
def Obligations.PassEndAdvancesTheLot : Prop :=
  (∀ (p fed : Nat) (s : State), live s.dev = true → s.dev.hpt.presence = .present → p ≤ 3 → fed ≤ 1048575 →
    ∃ u, u = handlerHeard s.dev ∧
      (∀ i l, openLot s.dev = some (i, l) → l.step = some (.pass p) → s.dev.hpt.pass = some p →
        s.dev.hpt.handler = s.dev.hpt.passHandler → ∃ v,
        v = putLot i (some { l with
          fedCounts := l.fedCounts ++ [(p, fed)]
          acc := { l.acc with
            unretested := l.acc.unretested + l.acc.pendingNow, pendingNow := l.acc.pendingNext
            pendingNext := 0 } }) u ∧
        (fed = s.dev.hpt.intake → exec (.passEnd p fed) s =
          .next (moved s (settle (settle (advancePass i p v))))) ∧
        (fed ≠ s.dev.hpt.intake → exec (.passEnd p fed) s = .next (moved s (settle (settle
          (advancePass i p (raise .accounting .note .fedMismatch i.val v))))))) ∧
      ((∀ i l, openLot s.dev = some (i, l) → ¬ (l.step = some (.pass p) ∧ s.dev.hpt.pass = some p ∧
        s.dev.hpt.handler = s.dev.hpt.passHandler)) →
        exec (.passEnd p fed) s = .next (moved s (settle
          (raise .handler .note .badMessage (handlerRef none s.dev) u))))) ∧
  (∀ (i : Fin 8) (k : Nat) (l : Lot) (d : Device), lotAt d i = some l → ∃ m,
    m = { l with
      step := some (.pass (k + 1)), passStarted := false, acc := { l.acc with countingPass := k + 1 } } ∧
    (0 < l.acc.pendingNow → k < (currentEntry l).retests → (l.state = .running ∨ l.state = .retest) →
      advancePass i k d = { d with
        lmg := { d.lmg with lots := d.lmg.lots.set i (some
          { m with state := .retest, resume := none, passStarted := true }) }
        hpt := { d.hpt with pass := some (k + 1), passHandler := d.hpt.handler, intake := 0 }
        lines := { d.lines with
          handlerOut := d.lines.handlerOut ++ [.startPass (k + 1) l.acc.pendingNow] } }) ∧
    (0 < l.acc.pendingNow → k < (currentEntry l).retests → l.state = .held →
      (l.resume = some .running ∨ l.resume = some (.retest k)) →
      advancePass i k d = putLot i (some { m with resume := some (.retest (k + 1)) }) d) ∧
    (0 < l.acc.pendingNow → k < (currentEntry l).retests → l.state = .staging →
      advancePass i k d = putLot i (some m) d) ∧
    ((l.acc.pendingNow = 0 ∨ (currentEntry l).retests ≤ k) → l.state ≠ .held → ∃ n,
      n = { l with state := .closing, resume := none, step := some .drain } ∧
      advancePass i k d = startDrain n (putLot i (some n) d)) ∧
    ((l.acc.pendingNow = 0 ∨ (currentEntry l).retests ≤ k) → l.state = .held → ∃ n,
      n = { l with step := some .drain, resume := some .closing } ∧
      advancePass i k d = startDrain n (putLot i (some n) d)))

/-- 3.6, 12.7 (R56): READY takes its level and nothing else changes but what the pins' refresh brings. And: 6.2, 6.7
(R102, R111), with the model's operand (log 4): RUN_TIME_SECOND lets its milliseconds pass at TPM while effective run
is on, and changes nothing while it is off, in CONFIG or under a reset. And: 3.6, 3.7, 11.5 (R55 to R57, R208): the
refresh after every command: FEED and ATTN follow their conditions, effective run is FEED with READY, on its falling
edge the spoiled mark of the index capture is set and on its rising edge the first-interval mark. And: 6.1, 6.2, 6.7
(R101, R102, R111): n of the milliseconds are counted, none without a running period and none past its length; the
period timer grows by n, and while effective run is on gate-on time grows by the same n and whole seconds past the
carry go to the open lot's run time, saturating. So gate-on time never outruns the period timer (log 4). -/
def Obligations.ReadyAndRunTime : Prop :=
  (∀ (level : Bool) (s : State), exec (.readyChange level) s =
    .next (moved s { s.dev with pins := { s.dev.pins with ready := level } })) ∧
  (∀ (ms : Nat) (s : State),
    (live s.dev = true → s.dev.hpt.effRun = true →
      exec (.runTimeSecond ms) s = .next (moved s (elapse ms s.dev))) ∧
    (live s.dev = false ∨ s.dev.hpt.effRun = false →
      exec (.runTimeSecond ms) s = .next (moved s s.dev))) ∧
  (∀ (s : State) (d : Device), ∃ run : Bool,
    run = (feedGate d && (d.pins.ready || (cfg d).readyForced)) ∧
    moved s d = { s with dev := { d with
      pins := { d.pins with feed := feedGate d, attn := attnLevel d }
      hpt := { d.hpt with
        effRun := run, capSpoiled := d.hpt.capSpoiled || (d.hpt.effRun && !run)
        capFirst := d.hpt.capFirst || (!d.hpt.effRun && run) } } }) ∧
  (∀ d : Device, feedGate d = true ↔ live d = true ∧ ∃ i l, openLot d = some (i, l) ∧
    (l.state = .running ∨ l.state = .retest) ∧ armedFor d l = true ∧ d.hpt.presence = .present ∧
    d.hpt.soaked = some (currentEntry l).temp ∧ bankUncorrected d.ctp.handlerBank = false ∧
    bankUncorrected d.ctp.testerBank = false) ∧
  (∀ d : Device, attnLevel d = true ↔ d.ctp.hold ≠ .powerOn ∧
    ((∃ n r, (bank d n).record = some r ∧ r.severity ≠ .note) ∨
      (∃ i l, lotAt d i = some l ∧ l.unseen = true) ∨ ∃ r ∈ d.rlu.records, r.state = .ready)) ∧
  (∀ (ms : Nat) (d : Device), ∃ (n : Nat) (u v : Device),
    (d.tpm.period = none → n = 0) ∧
    (∀ p, d.tpm.period = some p → n = min ms ((cfg d).samplePeriod * 1000 - p)) ∧
    u = { d with tpm := { d.tpm with period := d.tpm.period.map (· + n) } } ∧
    v = { u with tpm := { u.tpm with gateOn := d.tpm.gateOn + n, carry := (d.tpm.carry + n) % 1000 } } ∧
    (d.hpt.effRun = false → elapse ms d = u) ∧
    (d.hpt.effRun = true → openLot d = none → elapse ms d = v) ∧
    (∀ i l, d.hpt.effRun = true → openLot d = some (i, l) → elapse ms d = putLot i (some
      { l with runTime := min 16777215 (l.runTime + (d.tpm.carry + n) / 1000) }) v) ∧
    (d.tpm.gateOn ≤ d.tpm.period.getD 0 → (elapse ms d).tpm.gateOn ≤ (elapse ms d).tpm.period.getD 0))

/-! ## Samples and run time -/

/-- 6.3, 6.4 (R105, R107, R110): a period end judges the sample, applies it by the table of R107, replaces the last
sample record and starts a new period; a change of grade is recorded in the docked handler's entry. -/
def Obligations.PeriodEndJudgesTheSample : Prop :=
  ∀ (s : State) (h : Nat) (g : Grade), live s.dev = true → s.dev.tpm.period ≠ none → dockedHandler s.dev = some h →
    s.dev.tpm.grade = some g → ∃ (o : SampleOutcome) (uph : Nat) (t : Grade × Nat × Nat) (u : Device),
      uph = min 65535 (s.dev.tpm.results * 3600000 / s.dev.tpm.gateOn) ∧
      o = (if s.dev.tpm.gateOn < (cfg s.dev).samplePeriod * 1000 / 2 then SampleOutcome.skipped
        else if uph < (cfg s.dev).minUph ∨ (cfg s.dev).jamLimit ≤ s.dev.tpm.jams then .degraded else .good) ∧
      t = (match o with
        | .degraded => if s.dev.tpm.degrade < 2 then (g, s.dev.tpm.degrade + 1, 0)
          else (match g with | .a => .b | .b => .c | .c => .c, 0, 0)
        | .good => if s.dev.tpm.recover < 7 then (g, 0, s.dev.tpm.recover + 1)
          else (match g with | .a => .a | .b => .a | .c => .b, 0, 0)
        | _ => (g, s.dev.tpm.degrade, s.dev.tpm.recover)) ∧
      u = { s.dev with tpm := { s.dev.tpm with
        grade := some t.1, degrade := t.2.1, recover := t.2.2, period := some 0, results := 0, gateOn := 0
        jams := 0
        last := ⟨o, s.dev.tpm.sampled, s.dev.tpm.results, s.dev.tpm.gateOn, s.dev.tpm.jams,
          if o = .skipped then none else some uph, now s.dev⟩ } } ∧
      exec .periodEnd s = .next (moved s (settle
        (if t.1 = g then u else setEntry h { entryAt s.dev h with grade := some t.1 } u)))

/-! ## The floor line -/

/-- 7.4, 9.4 to 9.6 (R122, R124, R173, R175): HOLD and LIFT heard from a peer on a live line: the peer is HEARD with its
silence timer at 4 status periods, the line falls idle, then the content is taken. A HOLD of a known key and program
makes the entry ACTIVE with the heard reason, of a known key with another program removes the entry and is then taken
as new, a new one is added and applied while the table has room and is placed untracked when it has none; a LIFT
removes the entry it names. And: 7.4, 8.1, 9.6 (R124, R137, R138, R175): a STATUS gives its docked field, then its
parked list, then its floor-hold list; the need is evaluated after each entry (log 25). And, of the operations (R169,
R170, R173 to R175): `hearHoldList` removes each entry of that origin whose tag is not listed (in table order, the
model's choice: log 42) and takes each listing as a HOLD; `requestRemotes` requests REMOTE (o, t) of every lot with
the program in its plan, in slot order; `loseRemotes` takes the tracked or the untracked REMOTE (o, t) entries from
the lots in slot order, and a HELD lot that nothing holds any more continues; `removeFloorEntry` takes the entry from
the table, its tracked REMOTE entries from the lots and returns its records; `floorRequest` uses the own entry for
the lot's program, or makes one with the next tag, offers its HOLD and applies it, or with a full table notes
FLOOR_TABLE_FULL and keeps the hold local. -/
def Obligations.HoldsLiftsAndStatusHeard : Prop :=
  (∀ (o program tag : Nat) (s : State), floorLive s.dev = true → o ≠ ownStation s.dev →
    1 ≤ program → program ≤ 4095 → 1 ≤ tag → tag ≤ 255 → ∃ u,
    u = { s.dev with fli := { s.dev.fli with
      busy := false, peers := s.dev.fli.peers.setIfInBounds o ⟨.heard,
        some (4 * ((cfg s.dev).statusPeriod * 1000))⟩ } } ∧
    (∀ reason, 1 ≤ reason → reason ≤ 15 →
      (∀ e, floorEntry s.dev o tag = some e → e.program = program →
        exec (.holdReceived o program tag reason) s = .next (moved s (settle { u with hdu := { u.hdu with
          table := u.hdu.table.map fun x =>
            if x.origin = o ∧ x.tag = tag then { x with stale := false, reason } else x } }))) ∧
      (∀ e, floorEntry s.dev o tag = some e → e.program ≠ program →
        exec (.holdReceived o program tag reason) s = .next (moved s (settle
          (hearNewHold o program tag reason (removeFloorEntry o tag u))))) ∧
      (floorEntry s.dev o tag = none → s.dev.hdu.table.length < 8 →
        exec (.holdReceived o program tag reason) s = .next (moved s (settle
          (applyFloorHold ⟨program, o, tag, reason, false⟩ { u with hdu := { u.hdu with
            table := u.hdu.table ++ [⟨program, o, tag, reason, false⟩] } })))) ∧
      (floorEntry s.dev o tag = none → 8 ≤ s.dev.hdu.table.length → ∃ v, v = requestRemotes program o tag true u ∧
        exec (.holdReceived o program tag reason) s = .next (moved s (settle
          (raise .floor .corrected .floorTableFull o { v with rlu := { v.rlu with
            records := v.rlu.records.map (recallUntracked program) } }))))) ∧
    (floorEntry s.dev o tag = none → exec (.liftReceived o program tag 0) s = .next (moved s (settle u))) ∧
    (∀ e, floorEntry s.dev o tag = some e →
      exec (.liftReceived o program tag 0) s = .next (moved s (settle (removeFloorEntry o tag u))))) ∧
  (∀ (o : Nat) (c : StatusField) (s : State), floorLive s.dev = true → o ≠ ownStation s.dev → statusOk c = true →
    ∃ u v, u = { s.dev with fli := { s.dev.fli with
      busy := false, peers := s.dev.fli.peers.setIfInBounds o ⟨.heard,
        some (4 * ((cfg s.dev).statusPeriod * 1000))⟩ } } ∧
      v = (if c.handler = 0 then peerUndocks o u else hearDock o c.handler c.kit (gradeOfCode c.grade) u) ∧
      exec (.statusReceived o c) s = .next (moved s (settle (hearHoldList o c.holds
        (c.parked.foldl (fun d p => needEval (hearParked o p d)) (needEval v)))))) ∧
  (∀ (o program tag reason : Nat) (d : Device),
    (∀ e, floorEntry d o tag = some e → e.program = program → hearHold o program tag reason d =
      { d with hdu := { d.hdu with table := d.hdu.table.map fun x =>
        if x.origin = o ∧ x.tag = tag then { x with stale := false, reason } else x } }) ∧
    (∀ e, floorEntry d o tag = some e → e.program ≠ program →
      hearHold o program tag reason d = hearNewHold o program tag reason (removeFloorEntry o tag d)) ∧
    (floorEntry d o tag = none → hearHold o program tag reason d = hearNewHold o program tag reason d) ∧
    (d.hdu.table.length < 8 → hearNewHold o program tag reason d = applyFloorHold ⟨program, o, tag, reason, false⟩
      { d with hdu := { d.hdu with table := d.hdu.table ++ [⟨program, o, tag, reason, false⟩] } }) ∧
    (8 ≤ d.hdu.table.length → ∃ v, v = requestRemotes program o tag true d ∧ hearNewHold o program tag reason d =
      raise .floor .corrected .floorTableFull o { v with rlu := { v.rlu with
        records := v.rlu.records.map fun r => if r.programs.contains program then
          { r with state := .recalled, timer := none, cause := some .untracked } else r } })) ∧
  (∀ (program o t : Nat) (u : Bool) (d : Device),
    requestRemotes program o t u d = ([0, 1, 2, 3, 4, 5, 6, 7] : List (Fin 8)).foldl (fun e i =>
      match lotAt e i with
      | some l => if ∃ p ∈ l.plan, p.program = program then holdRequest i (.remote o t) u e else e
      | none => e) d) ∧
  (∀ (o t : Nat) (u : Bool) (d : Device),
    loseRemotes o t u d = ([0, 1, 2, 3, 4, 5, 6, 7] : List (Fin 8)).foldl (fun e i =>
      match lotAt e i with
      | some l =>
        if ∃ x ∈ l.holds, x.key = .remote o t ∧ x.untracked = u then
          let m := { l with holds := l.holds.filter fun x => !(x.key = .remote o t ∧ x.untracked = u) }
          if m.holds = [] ∧ l.overflow = false ∧ l.state = .held then lotContinues i (putLot i (some m) e)
          else putLot i (some m) e
        else e
      | none => e) d) ∧
  (∀ (o t : Nat) (d : Device), removeFloorEntry o t d = returnRecords o t (loseRemotes o t false
    { d with hdu := { d.hdu with table := d.hdu.table.filter fun e => !(e.origin = o ∧ e.tag = t) } })) ∧
  (∀ (o : Nat) (holds : List HoldField) (d : Device), ∃ u : Device,
    u = ((d.hdu.table.filter fun e => e.origin = o ∧ ∀ h ∈ holds, h.tag ≠ e.tag).map (·.tag)).foldl
      (fun e t => removeFloorEntry o t e) d ∧
    hearHoldList o holds d = holds.foldl (fun e h => hearHold o h.program h.tag h.reason e) u) ∧
  (∀ (i : Fin 8) (l : Lot) (key : Option Nat → HoldKey) (code : Nat) (d : Device), lotAt d i = some l → ∃ p : Nat,
    p = (currentEntry l).program ∧
    (∀ e, ownEntryFor d p = some e → floorRequest i key code d = holdRequest i (key (some e.tag)) false d) ∧
    (ownEntryFor d p = none → d.hdu.table.length < 8 → ∃ t e u, t = nextTag d ∧
      e = ⟨p, ownStation d, t, code, false⟩ ∧
      u = offer (.hold p t code) { d with hdu := { d.hdu with
        ownTag := t, table := d.hdu.table ++ [e], holdsInPlay := d.hdu.holdsInPlay ++ [t] } } ∧
      floorRequest i key code d = applyFloorHold e (holdRequest i (key (some t)) false u)) ∧
    (ownEntryFor d p = none → 8 ≤ d.hdu.table.length → floorRequest i key code d =
      raise .floor .corrected .floorTableFull (ownStation d) (holdRequest i (key none) false d)))

/-- 7.4, 8.1, 8.4, 8.5, 8.7 (R137 to R139, R149, R151, R154): CLAIM, DOCK, PARK and SEEK heard from a peer, DOCK and PARK
here of a handler that this station's dock record does not name, with any kit from 0 to 255. And: 8.1 (R140): a DOCK
or PARK of the handler of the own dock record is a conflict: a note while it is PRESENT, and a release of the dock
record with a note while it is ABSENT. And: 8.1, 8.2 (R136 to R139, R143): a table write changes the one entry, and
the own parked list keeps the handlers still FREE and parked here; `peerUndocks` makes each entry DOCKED at the peer
UNKNOWN, kit and grade kept; `entryParked` and `entryClaim` by the tables of R138 and R139 (a CLAIMED entry keeps its
timer at a PARK: log 37). And: 8.1 (R137, R138, R140): `hearDock` and `hearParked` by the entry's state and the own
dock record; a parked-list entry leaves a CLAIMED entry unchanged but for the target of a need in WON, which takes
kit, grade and parked-by (R150; log 38); one that names the own ABSENT handler releases the dock record, and the
entry is then FREE and parked by the sender, which is the model's choice (log 31). And: 7.6, 8.5, 8.7 (R129, R149,
R151): `removeClaim` takes the queued CLAIM out and marks the one in the slot; a stronger CLAIM for the target sends
the need to SEEKING, a weaker one is answered with the own CLAIM; a DOCK of the target at a peer loses it (CLAIMING)
or breaks the claim with a note (WON); a PARK that gives the target another kit or grade C loses it in CLAIMING. The
own claim, in WON as in CLAIMING, is that of the last own CLAIM offered (for WON the model's choice, log 44). -/
def Obligations.AssignmentBulletinsHeard : Prop :=
  (∀ (o h k : Nat) (s : State), floorLive s.dev = true → o ≠ ownStation s.dev → 1 ≤ h → h ≤ 48 → k ≤ 255 →
    ∃ u, u = { s.dev with fli := { s.dev.fli with
      busy := false, peers := s.dev.fli.peers.setIfInBounds o ⟨.heard,
        some (4 * ((cfg s.dev).statusPeriod * 1000))⟩ } } ∧
    (∀ p, 1 ≤ k → p ≤ 3 → exec (.claimReceived o h k p) s = .next (moved s (settle (needAfterClaim o h p
      (setEntry h (entryClaim (minutes (cfg s.dev).dockWait) (ownStation s.dev) o p (entryAt s.dev h)) u))))) ∧
    (∀ g, 1 ≤ g → g ≤ 3 → dockedHandler s.dev ≠ some h →
      exec (.dockReceived o h k g) s = .next (moved s (settle (needAfterPeerDock h
        (setEntry h ⟨.docked, some o, k, gradeOfCode g, none, none, none⟩ (peerUndocks o u))))) ∧
      exec (.parkReceived o h k g) s = .next (moved s (settle (needAfterPark h
        (setEntry h (entryParked o k (gradeOfCode g) (entryAt s.dev h)) u))))) ∧
    (∀ p, 1 ≤ k → p ≤ 3 →
      (handlerIdle s.dev = true → s.dev.hpt.kit = k →
        exec (.seekReceived o k p) s = .next (moved s (settle (parkDocked u)))) ∧
      ((handlerIdle s.dev = false ∨ s.dev.hpt.kit ≠ k) →
        exec (.seekReceived o k p) s = .next (moved s (settle u))))) ∧
  (∀ (o h k g : Nat) (s : State), floorLive s.dev = true → o ≠ ownStation s.dev → 1 ≤ h → h ≤ 48 → k ≤ 255 →
    1 ≤ g → g ≤ 3 → s.dev.hpt.handler = some h → s.dev.asu.need.target ≠ some h → ∃ u,
    u = peerUndocks o { s.dev with fli := { s.dev.fli with
      busy := false, peers := s.dev.fli.peers.setIfInBounds o ⟨.heard,
        some (4 * ((cfg s.dev).statusPeriod * 1000))⟩ } } ∧
    (s.dev.hpt.presence = .present → exec (.dockReceived o h k g) s = .next (moved s (settle
      (raise .floor .note .dockConflict h u)))) ∧
    (s.dev.hpt.presence = .absent → exec (.dockReceived o h k g) s = .next (moved s (settle
      (raise .floor .note .handlerMoved h
        (setEntry h ⟨.docked, some o, k, gradeOfCode g, none, none, none⟩ (undock u)))))) ∧ ∃ v,
    v = { s.dev with fli := { s.dev.fli with
      busy := false, peers := s.dev.fli.peers.setIfInBounds o ⟨.heard,
        some (4 * ((cfg s.dev).statusPeriod * 1000))⟩ } } ∧
    (s.dev.hpt.presence = .present → exec (.parkReceived o h k g) s = .next (moved s (settle
      (raise .floor .note .dockConflict h v)))) ∧
    (s.dev.hpt.presence = .absent → exec (.parkReceived o h k g) s = .next (moved s (settle
      (raise .floor .note .handlerMoved h
        (setEntry h (entryParked o k (gradeOfCode g) (entryAt (undock v) h)) (undock v))))))) ∧
  (∀ (h : Nat) (e : HandlerEntry) (d : Device), 1 ≤ h → h ≤ 48 →
    entryAt (setEntry h e d) h = e ∧ (∀ j, 1 ≤ j → j ≠ h → entryAt (setEntry h e d) j = entryAt d j) ∧
    setEntry h e d = { d with asu := { d.asu with
      table := (setEntry h e d).asu.table
      parked := d.asu.parked.filter fun j => (entryAt (setEntry h e d) j).state = .free ∧
        (entryAt (setEntry h e d) j).parkedBy = some (ownStation d) } }) ∧
  (∀ (o : Nat) (d : Device),
    (∀ j, entryAt (peerUndocks o d) j =
      if (entryAt d j).state = .docked ∧ (entryAt d j).station = some o then
        ⟨.unknown, none, (entryAt d j).kit, (entryAt d j).grade, none, none, none⟩ else entryAt d j) ∧
    peerUndocks o d = { d with asu := { d.asu with
      table := (peerUndocks o d).asu.table
      parked := d.asu.parked.filter fun j => (entryAt (peerUndocks o d) j).state = .free ∧
        (entryAt (peerUndocks o d) j).parkedBy = some (ownStation d) } }) ∧
  (∀ (o k : Nat) (g : Option Grade) (e : HandlerEntry),
    (e.state ≠ .claimed → entryParked o k g e = ⟨.free, none, k, g, none, some o, none⟩) ∧
    (e.state = .claimed → entryParked o k g e = { e with parkedBy := some o, kit := k, grade := g })) ∧
  (∀ (ms own o p : Nat) (e : HandlerEntry), ∃ t : Timer, t = (if o = own then none else some ms) ∧
    (e.state = .docked → entryClaim ms own o p e = e) ∧
    (e.state = .unknown ∨ e.state = .free → entryClaim ms own o p e =
      { e with state := .claimed, station := some o, strength := some p, timer := t }) ∧
    (∀ q c, e.state = .claimed → e.station = some q → e.strength = some c →
      (o = q ∨ p < c ∨ (p = c ∧ o < q) → entryClaim ms own o p e =
        { e with station := some o, strength := some p, timer := t }) ∧
      (o ≠ q → c < p ∨ (p = c ∧ q ≤ o) → entryClaim ms own o p e = e))) ∧
  (∀ (o h k g : Nat) (d : Device), ∃ v f : Device → Device,
    (∀ e, v e = setEntry h ⟨.docked, some o, k, gradeOfCode g, none, none, none⟩ e) ∧
    (∀ e, f e = setEntry h ⟨.free, none, k, gradeOfCode g, none, some o, none⟩ e) ∧
    (dockedHandler d ≠ some h → hearDock o h k (gradeOfCode g) d = needAfterPeerDock h (v (peerUndocks o d))) ∧
    (d.hpt.handler = some h → d.hpt.presence = .present →
      hearDock o h k (gradeOfCode g) d =
        needAfterPeerDock h (raise .floor .note .dockConflict h (peerUndocks o d)) ∧
      hearParked o ⟨h, k, g⟩ d = raise .floor .note .dockConflict h d) ∧
    (d.hpt.handler = some h → d.hpt.presence = .absent →
      hearDock o h k (gradeOfCode g) d =
        needAfterPeerDock h (raise .floor .note .handlerMoved h (v (undock (peerUndocks o d)))) ∧
      hearParked o ⟨h, k, g⟩ d = raise .floor .note .handlerMoved h (f (undock d))) ∧
    (dockedHandler d ≠ some h →
      ((entryAt d h).state = .unknown ∨ (entryAt d h).state = .free →
        hearParked o ⟨h, k, g⟩ d = needAfterPark h (f d)) ∧
      ((entryAt d h).state = .docked → hearParked o ⟨h, k, g⟩ d = d) ∧
      ((entryAt d h).state = .claimed →
        (d.asu.need.state = .won → d.asu.need.target = some h → hearParked o ⟨h, k, g⟩ d =
          setEntry h { entryAt d h with parkedBy := some o, kit := k, grade := gradeOfCode g } d) ∧
        (d.asu.need.state ≠ .won ∨ d.asu.need.target ≠ some h → hearParked o ⟨h, k, g⟩ d = d)))) ∧
  (∀ (o h p : Nat) (d : Device), ∃ (n : Need) (lost : Device) (beats : Prop), n = d.asu.need ∧
    (beats ↔ p < n.lastClass.getD 0 ∨ (p = n.lastClass.getD 0 ∧ o < ownStation d)) ∧
    lost = (if (entryAt d h).state = .claimed ∧ (entryAt d h).station = some (ownStation d) then
        setEntry h (if (entryAt d h).parkedBy = none then
            ⟨.unknown, none, (entryAt d h).kit, (entryAt d h).grade, none, none, none⟩
          else { entryAt d h with state := .free, station := none, strength := none, timer := none }) d
      else d) ∧
    removeClaim d = { d with fli := { d.fli with
      queue := d.fli.queue.filter fun e => !isClaim e.bulletin
      slot := d.fli.slot.map fun sl => if isClaim sl.bulletin then { sl with removal := true } else sl } } ∧
    (∀ b, isClaim b = true ↔ ∃ x k q, b = .claim x k q) ∧
    offerClaim h d = offer (.claim h n.kit (n.cls.getD 0)) (setNeed { n with lastClass := some (n.cls.getD 0) } d) ∧
    (n.target ≠ some h ∨ (n.state ≠ .claiming ∧ n.state ≠ .won) →
      needAfterClaim o h p d = d ∧ needAfterPeerDock h d = d) ∧
    (n.target = some h → n.state = .claiming →
      (beats → needAfterClaim o h p d = toSeeking (removeClaim d)) ∧
      (¬ beats → needAfterClaim o h p d = if n.claimSent then offerClaim h d else d) ∧
      needAfterPeerDock h d = toSeeking (removeClaim lost) ∧
      ((entryAt d h).kit ≠ n.kit ∨ (entryAt d h).grade = some .c →
        needAfterPark h d = toSeeking (removeClaim lost))) ∧
    (n.target = some h → n.state = .won →
      (beats → needAfterClaim o h p d = toSeeking d) ∧ (¬ beats → needAfterClaim o h p d = offerClaim h d) ∧
      needAfterPeerDock h d = toSeeking (raise .floor .note .claimBroken h d)) ∧
    (n.target ≠ some h ∨ n.state ≠ .claiming ∨ ((entryAt d h).kit = n.kit ∧ (entryAt d h).grade ≠ some .c) →
      needAfterPark h d = d))

/-- 7.3, 7.4 (R118, R122, R123): a dropped frame is counted, an own number heard is a duplicate that bars the station,
and a frame that begins makes the line busy. And: 7.2, 7.3 (R117, R118): an attempt begins in ACTIVE with the slot
empty, the line idle and an entry queued: the head entry moves into the slot, a STATUS with its content composed now.
Otherwise nothing changes; nor does the end of an attempt where none runs (log 23). And: 7.1, 7.4 (R115, R122, R123):
a bulletin with a field out of its range is a dropped frame, and one of the own number a duplicate. And: 7.2 (R117):
the content of a STATUS: the cell state, the number of QUEUED lots, the docked handler with its kit and grade or
zeros, the own parked list with the kit and grade recorded, and the own floor holds in ascending tag order. -/
def Obligations.FloorLineEvents : Prop :=
  (∀ s : State, floorLive s.dev = true →
    exec .floorFrameDropped s = .next (moved s { s.dev with fli := { s.dev.fli with
      busy := false, rxErrors := min 65535 (s.dev.fli.rxErrors + 1) } }) ∧
    exec .lineBusy s = .next (moved s { s.dev with fli := { s.dev.fli with busy := true } }) ∧
    exec .duplicateStation s = .next (moved s (settle (enterBarred
      (raise .floor .uncorrected .duplicateStation (ownStation s.dev)
        { s.dev with fli := { s.dev.fli with busy := false } }))))) ∧
  (∀ s : State,
    (∀ e rest, live s.dev = true → s.dev.fli.line = .active → s.dev.fli.slot = none → s.dev.fli.busy = false →
      s.dev.fli.queue = e :: rest →
      exec .attemptBegin s = .next (moved s { s.dev with fli := { s.dev.fli with
        queue := rest, busy := true
        slot := some ⟨e.bulletin, e.age, if e.bulletin = .status then some (composeStatus s.dev) else none,
          false⟩ } })) ∧
    (live s.dev = false ∨ s.dev.fli.line ≠ .active ∨ s.dev.fli.slot ≠ none ∨ s.dev.fli.busy = true ∨
      s.dev.fli.queue = [] → exec .attemptBegin s = .next (moved s s.dev)) ∧
    (s.dev.fli.slot = none → exec .bulletinSent s = .next (moved s s.dev) ∧
      exec .arbitrationLost s = .next (moved s s.dev) ∧ exec .transmitError s = .next (moved s s.dev))) ∧
  (∀ (o a b c : Nat) (f : StatusField) (s : State), floorLive s.dev = true → ∀ i ok,
    ((i, ok) ∈ [(Instr.holdReceived o a b c, holdOk ⟨a, b, c⟩), (.liftReceived o a b c, liftOk a b c),
      (.claimReceived o a b c, claimOk a b c), (.dockReceived o a b c, handlerFieldOk ⟨a, b, c⟩),
      (.parkReceived o a b c, handlerFieldOk ⟨a, b, c⟩), (.seekReceived o a b, seekOk a b),
      (.statusReceived o f, statusOk f)]) →
    (ok = false → exec i s = exec .floorFrameDropped s) ∧
    (ok = true → o = ownStation s.dev → exec i s = exec .duplicateStation s)) ∧
  (∀ d : Device, ∃ c, c = composeStatus d ∧
    ((∃ i l, stagingLot d = some (i, l)) → c.cellState = 2) ∧
    (stagingLot d = none → openLot d = none → c.cellState = 1) ∧
    (∀ i l, stagingLot d = none → openLot d = some (i, l) → c.cellState = if l.state = .held then 4 else 3) ∧
    c.queued = ((List.finRange 8).filter fun i => (lotAt d i).any fun l => l.state = .queued).length ∧
    (dockedHandler d = none → c.handler = 0 ∧ c.kit = 0 ∧ c.grade = 0) ∧
    (∀ h, dockedHandler d = some h → c.handler = h ∧ c.kit = d.hpt.kit ∧ c.grade = gradeCode d.tpm.grade) ∧
    c.parked = d.asu.parked.map (fun h => ⟨h, (entryAt d h).kit, gradeCode (entryAt d h).grade⟩) ∧
    c.holds.Pairwise (fun x y => x.tag ≤ y.tag) ∧
    c.holds.Perm ((d.hdu.table.filter fun e => e.origin = ownStation d).map fun e => ⟨e.program, e.tag, e.reason⟩))

/-- 7.3, 7.5 (R119 to R121, R126, R127): the end of an own attempt. A bulletin sent lowers the score by 1 and leaves the
slot, with SENT to its owner; a lost arbitration gives it back to the queue; a transmit error raises the score by 8
and gives it back, and a score of 64 in ACTIVE is QUIET with its timer at 10 s. And: 7.2, 7.5, 7.7, 8.1, 9.7 (R116,
R125, R127, R132, R141, R176): the line timers. And: 7.5 (R128, R148, R168): a bulletin offered in BARRED or OFF is
discarded: the in-play mark of a HOLD or LIFT is cleared, a CLAIM not yet sent starts the SEEK repeat timer, nothing
else happens; entering BARRED stops both line timers and discards the queue in that way. And: 7.3 (R121): the
bulletin in the slot is discarded where its removal was asked or a queued one supersedes it, and otherwise goes back
with its age. And: 7.3, 8.5, 9.4 (R120, R148, R168): SENT clears the in-play mark of a HOLD or LIFT; of a CLAIM for
the target it makes the entry CLAIMED here unless it is DOCKED or CLAIMED by a stronger claim, and in CLAIMING sets
the claim-sent mark and starts the claim window; of other bulletins it does nothing. -/
def Obligations.AttemptEndsAndLineTimers : Prop :=
  (∀ (sl : TxSlot) (s : State), floorLive s.dev = true → s.dev.fli.slot = some sl →
    exec .bulletinSent s = .next (moved s (settle (reportSent sl.bulletin { s.dev with
      fli := { s.dev.fli with slot := none, score := s.dev.fli.score - 1, busy := false }
      lines := { s.dev.lines with floorOut := s.dev.lines.floorOut ++ [⟨sl.bulletin, sl.content⟩] } }))) ∧
    exec .arbitrationLost s = .next (moved s (settle (returnSlot s.dev))) ∧
    ∃ u, u = returnSlot { s.dev with fli := { s.dev.fli with score := s.dev.fli.score + 8 } } ∧
      (s.dev.fli.score + 8 < 64 ∨ s.dev.fli.line ≠ .active →
        exec .transmitError s = .next (moved s (settle u))) ∧
      (64 ≤ s.dev.fli.score + 8 → s.dev.fli.line = .active → ∃ v,
        v = raise .floor .note .lineQuiet (ownStation s.dev) u ∧
        exec .transmitError s = .next (moved s (settle
          { v with fli := { v.fli with line := .quiet, quietTimer := some 10000 } })))) ∧
  (∀ s : State, live s.dev = true →
    (∀ n, s.dev.fli.statusTimer = some n → ∃ u, u = { s.dev with fli := { s.dev.fli with
        statusTimer := some ((cfg s.dev).statusPeriod * 1000) } } ∧
      (s.dev.fli.line = .listen → exec .statusPeriodTimerExpiry s = .next (moved s (settle
        { offer .status u with fli := { (offer .status u).fli with line := .active } }))) ∧
      (s.dev.fli.line = .active ∨ s.dev.fli.line = .quiet →
        exec .statusPeriodTimerExpiry s = .next (moved s (settle (offer .status u))))) ∧
    (∀ n, s.dev.fli.quietTimer = some n → exec .quietTimerExpiry s = .next (moved s (settle { s.dev with
      fli := { s.dev.fli with quietTimer := none, score := 32, line := .active } }))) ∧
    (∀ (o : Fin 32) n, s.dev.fli.peers[o].timer = some n → ∃ u,
      u = peerUndocks o.val (raise .floor .note .peerSilent o.val { s.dev with fli := { s.dev.fli with
        peers := s.dev.fli.peers.set o ⟨.silent, none⟩ } }) ∧
      exec (.peerSilenceTimerExpiry o.val) s = .next (moved s (settle { u with hdu := { u.hdu with
        table := u.hdu.table.map fun e => if e.origin = o.val then { e with stale := true } else e } })))) ∧
  (∀ (b : Bulletin) (d : Device), d.fli.line = .barred ∨ d.fli.line = .off →
    (∀ p t r, b = .hold p t r → offer b d = { d with hdu := { d.hdu with
      holdsInPlay := d.hdu.holdsInPlay.filter (· ≠ t) } }) ∧
    (∀ p t, b = .lift p t → offer b d = { d with hdu := { d.hdu with
      liftsInPlay := d.hdu.liftsInPlay.filter (· ≠ t) } }) ∧
    (∀ h k p, b = .claim h k p → offer b d =
      if d.asu.need.state = .claiming ∧ d.asu.need.claimSent = false then
        setNeed { d.asu.need with seekTimer := some 60000 } d else d) ∧
    ((∀ h k g, b = .dock h k g ∨ b = .park h k g → offer b d = d) ∧
      (∀ k p, b = .seek k p → offer b d = d) ∧ (b = .status → offer b d = d))) ∧
  (∀ d : Device, (d.fli.line = .barred → enterBarred d = d) ∧
    (d.fli.line ≠ .barred → enterBarred d = d.fli.queue.foldl (fun e x => offer x.bulletin e) { d with
      fli := { d.fli with line := .barred, quietTimer := none, statusTimer := none, queue := [] } })) ∧
  (∀ (sl : TxSlot) (d : Device), d.fli.slot = some sl → ∃ (u : Device) (superseded : Prop),
    u = { d with fli := { d.fli with slot := none } } ∧
    (superseded ↔ ∃ e ∈ d.fli.queue,
      (sl.bulletin = .status ∧ e.bulletin = .status) ∨
      (∃ k p k' p', sl.bulletin = .seek k p ∧ e.bulletin = .seek k' p') ∨
      (∃ h k p h' k' p', sl.bulletin = .claim h k p ∧ e.bulletin = .claim h' k' p') ∨
      (∃ p t r p', sl.bulletin = .hold p t r ∧ e.bulletin = .lift p' t) ∨
      (∃ h k g k' g', (sl.bulletin = .dock h k g ∨ sl.bulletin = .park h k g) ∧
        (e.bulletin = .dock h k' g' ∨ e.bulletin = .park h k' g'))) ∧
    (sl.removal = true ∨ superseded → returnSlot d = clearInPlay sl.bulletin u) ∧
    (sl.removal = false → ¬ superseded → d.fli.line = .barred → returnSlot d = offer sl.bulletin u) ∧
    (sl.removal = false → ¬ superseded → d.fli.line ≠ .barred → returnSlot d = { u with fli := { u.fli with
      queue := insertEntry ⟨sl.bulletin, sl.age⟩ d.fli.queue } })) ∧
  (∀ (b : Bulletin) (d : Device),
    (∀ p t r, b = .hold p t r → reportSent b d = clearInPlay b d ∧ clearInPlay b d =
      { d with hdu := { d.hdu with holdsInPlay := d.hdu.holdsInPlay.filter (· ≠ t) } }) ∧
    (∀ p t, b = .lift p t → reportSent b d = clearInPlay b d ∧ clearInPlay b d =
      { d with hdu := { d.hdu with liftsInPlay := d.hdu.liftsInPlay.filter (· ≠ t) } }) ∧
    (∀ h k p, b = .claim h k p → reportSent b d = claimSent h p d ∧ clearInPlay b d = d) ∧
    ((∀ h k g, b = .dock h k g ∨ b = .park h k g → reportSent b d = d ∧ clearInPlay b d = d) ∧
      (∀ k p, b = .seek k p → reportSent b d = d ∧ clearInPlay b d = d) ∧
      (b = .status → reportSent b d = d ∧ clearInPlay b d = d))) ∧
  (∀ (h p : Nat) (d : Device), ∃ (e : HandlerEntry) (beaten : Bool) (u : Device), e = entryAt d h ∧
    (beaten = true ↔ e.state = .docked ∨ (e.state = .claimed ∧ e.station ≠ some (ownStation d) ∧
      ¬ (p < e.strength.getD 0 ∨ (p = e.strength.getD 0 ∧ ownStation d < e.station.getD 0)))) ∧
    u = setEntry h (if beaten then e else
      { e with state := .claimed, station := some (ownStation d), strength := some p, timer := none }) d ∧
    (d.asu.need.target = some h → d.asu.need.state = .claiming → d.asu.need.claimSent = false →
      claimSent h p d = setNeed { d.asu.need with
        claimSent := true, windowTimer := some (cfg d).claimWindow } u) ∧
    (d.asu.need.target = some h → (d.asu.need.state = .claiming ∧ d.asu.need.claimSent = true) ∨
      d.asu.need.state = .won → claimSent h p d = u) ∧
    (d.asu.need.target ≠ some h ∨ (d.asu.need.state ≠ .claiming ∧ d.asu.need.state ≠ .won) →
      claimSent h p d = d))

/-! ## Handler assignment and release -/

/-- 8.1, 8.4, 8.5, 8.7 (R139, R147 to R151, R153): the timers of the assignment unit. And: 8.2 (R143, R44): parking the
docked handler orders its undock, offers PARK with the dock record's kit and TPM's grade, frees its entry for the
pool and appends it to the own parked list. The undock order (R44): a PRESENT handler is LEAVING with the leaving
timer at 3 s, also where that timer still runs for an earlier handler (the model's choice, log 34); an ABSENT one is
EMPTY at once, ID and kit emptied, the gone report made; in both UNDOCK is sent, soak and kit change end and the
capture is cleared; in EMPTY nothing happens. `offerSeek` offers SEEK and starts its timer at 60 s (R147). -/
def Obligations.AssignmentTimersAndParking : Prop :=
  (∀ s : State, live s.dev = true →
    (∀ h n, (entryAt s.dev h).timer = some n → exec (.claimTimerExpiry h) s = .next (moved s (settle
      (setEntry h (if (entryAt s.dev h).parkedBy = none then
          ⟨.unknown, none, (entryAt s.dev h).kit, (entryAt s.dev h).grade, none, none, none⟩
        else { entryAt s.dev h with state := .free, station := none, strength := none, timer := none })
        s.dev)))) ∧
    (∀ n, s.dev.asu.need.seekTimer = some n → s.dev.asu.need.state = .seeking →
      exec .seekRepeatTimerExpiry s = .next (moved s (settle
        (offerSeek (setNeed { s.dev.asu.need with seekTimer := none } s.dev))))) ∧
    (∀ n h, s.dev.asu.need.seekTimer = some n → s.dev.asu.need.state = .claiming →
      s.dev.asu.need.target = some h → s.dev.asu.need.claimSent = false →
      exec .seekRepeatTimerExpiry s = .next (moved s (settle
        (offerClaim h (setNeed { s.dev.asu.need with seekTimer := none } s.dev))))) ∧
    (∀ n, s.dev.asu.need.windowTimer = some n → s.dev.asu.need.state = .claiming →
      exec .claimWindowExpiry s = .next (moved s (settle (setNeed { s.dev.asu.need with
        state := .won, windowTimer := none
        dockWaitTimer := some ((cfg s.dev).dockWait * 60000) } s.dev)))) ∧
    (∀ n h, s.dev.asu.need.dockWaitTimer = some n → s.dev.asu.need.state = .won →
      s.dev.asu.need.target = some h → ∃ u,
      u = raise .floor .note .dockWaitExpired h
        (parkEntry h (entryAt s.dev h).kit (entryAt s.dev h).grade s.dev) ∧
      exec .dockWaitExpiry s = .next (moved s (settle (toSeeking
        (setNeed { u.asu.need with passedOver := some h } u))))) ∧
    (∀ n, s.dev.asu.idleTimer = some n → exec .idleTimerExpiry s = .next (moved s (settle
      (parkDocked { s.dev with asu := { s.dev.asu with idleTimer := none } }))))) ∧
  (∀ d : Device,
    (d.hpt.presence = .present → undock d = { d with
      hpt := { d.hpt with
        presence := .leaving, leaving := some 3000, absence := none, soaked := none, soak := none
        kitChange := none, capAcc := 0, capFirst := false, capSpoiled := true }
      tpm := { d.tpm with sampled := none, period := none, results := 0, gateOn := 0, jams := 0 }
      lines := { d.lines with handlerOut := d.lines.handlerOut ++ [.undock] } }) ∧
    (d.hpt.presence = .absent → undock d = { d with
      hpt := { d.hpt with
        presence := .empty, handler := none, kit := 0, soaked := none, soak := none
        kitChange := none, capAcc := 0, capFirst := false, capSpoiled := true }
      tpm := { d.tpm with
        sampled := none, period := none, results := 0, gateOn := 0, jams := 0
        grade := none, degrade := 0, recover := 0 }
      lines := { d.lines with handlerOut := d.lines.handlerOut ++ [.undock] } }) ∧
    (d.hpt.presence = .empty ∨ d.hpt.presence = .leaving → undock d = d ∧ parkDocked d = d) ∧
    (d.hpt.handler = none → parkDocked d = d) ∧
    offerSeek d = setNeed { d.asu.need with seekTimer := some 60000 }
      (offer (.seek d.asu.need.kit (d.asu.need.cls.getD 0)) d)) ∧
  (∀ (h : Nat) (d : Device), 1 ≤ h → h ≤ 48 → d.hpt.presence = .present ∨ d.hpt.presence = .absent →
    d.hpt.handler = some h → ∃ u,
    u = offer (.park h d.hpt.kit d.tpm.grade) (undock d) ∧
    parkDocked d = joinParked h (setEntry h
      ⟨.free, none, d.hpt.kit, d.tpm.grade, none, some (ownStation d), none⟩ u) ∧
    (parkDocked d).hpt = (undock d).hpt ∧ (parkDocked d).tpm = (undock d).tpm ∧
    (parkDocked d).lines = (undock d).lines ∧ (parkDocked d).asu.parked.getLast? = some h)

/-- 7.6 (R129 to R131): an offer on a line that accepts it. A bulletin that replaces one takes its place as a new entry;
a free place is taken; otherwise a STATUS gives way, else a SEEK; otherwise the new bulletin is dropped or refused
with its fault. An entry goes behind all that the order of kinds and ages puts before it. And: 8.3 to 8.6 (R144 to
R147, R152): a need that begins takes kit and class of the staging lot and goes to SEEKING. On entry to SEEKING
(`toSeeking`, which clears target, claim-sent mark and timers) and at each re-evaluation there: the need joins a kit
change in flight for its kit, else claims the best candidate, else orders a kit change where HPT takes one, the grade
is A or B, no insertion is open and the barred mark is clear, else offers SEEK on entry with its timer at 60 s and
waits. In CLAIMING and WON a need that still exists stays; in KIT_CHANGE it waits for the end of the kit change, then
goes to SEEKING where it still exists (log 13) and ends otherwise. A need that is met ends: a CLAIM is removed and
the target entry CLAIMED here released without a bulletin, a WON target is released with PARK. And: 8.3 (R145; log
39): `stagingReport` by the staging lot now and the one last told: no change is no report; a lot enters; a lot leaves
and the need ends; a replacement of the same kit gives the need its class, one of another kit ends it. `endNeed` acts
by the need's state and clears it. And: 8.5, 8.7 (R150, R155): `wonPark` and `gradeCPark` park the docked handler in
WON, and at grade C, once no insertion is open. -/
def Obligations.OffersAndTheNeed : Prop :=
  (∀ (b : Bulletin) (d : Device), (d.fli.line = .listen ∨ d.fli.line = .active ∨ d.fli.line = .quiet) →
    ∃ (into : (Bulletin → Bool) → Fli) (full : Prop),
      (∀ p, into p = { d.fli with
        queue := insertEntry ⟨b, d.fli.nextAge⟩ (d.fli.queue.filter fun e => !p e.bulletin)
        nextAge := d.fli.nextAge + 1 }) ∧
      (full ↔ 12 ≤ d.fli.queue.length + (if d.fli.slot.isSome then 1 else 0)) ∧
      ((∃ e ∈ d.fli.queue, replaces b e.bulletin = true) → (offer b d).fli = into (replaces b)) ∧
      ((∀ e ∈ d.fli.queue, replaces b e.bulletin = false) →
        (¬ full → offer b d = { d with fli := into fun _ => false }) ∧
        (full → (∃ e ∈ d.fli.queue, e.bulletin = .status) → offer b d = { d with fli := into isStatus }) ∧
        (full → (∀ e ∈ d.fli.queue, e.bulletin ≠ .status) →
          (∃ e ∈ d.fli.queue, ∃ k p, e.bulletin = .seek k p) → offer b d = { d with fli := into isSeek }) ∧
        (full → (∀ e ∈ d.fli.queue, e.bulletin ≠ .status ∧ ∀ k p, e.bulletin ≠ .seek k p) →
          (offer b d).fli = d.fli ∧ (offer b d).ctp.floorBank = takeFault d.ctp.floorBank (match b with
            | .hold _ t _ => ⟨.uncorrected, .txqRefused, t, now d⟩
            | .lift _ t => ⟨.uncorrected, .txqRefused, t, now d⟩
            | .claim h _ _ => ⟨.note, .txqDropped, h, now d⟩
            | .dock h _ _ => ⟨.note, .txqDropped, h, now d⟩
            | .park h _ _ => ⟨.note, .txqDropped, h, now d⟩
            | .seek .. => ⟨.note, .txqDropped, 255, now d⟩
            | .status => ⟨.note, .txqDropped, 255, now d⟩)))) ∧
  (∀ (e : QEntry) (q : List QEntry), ∃ before after, q = before ++ after ∧ insertEntry e q = before ++ e :: after ∧
    (∀ x ∈ before, goesBefore e x = false) ∧ ∀ x ∈ after.head?, goesBefore e x = true) ∧
  (∀ (i : Fin 8) (l : Lot) (d : Device), stagingLot d = some (i, l) → d.asu.need.state = .idle →
    (¬ (dockedHandler d = none ∨ d.hpt.kit ≠ l.kit ∨ d.tpm.grade = some .c) → needEval d = d) ∧
    ((dockedHandler d = none ∨ d.hpt.kit ≠ l.kit ∨ d.tpm.grade = some .c) → needEval d =
      toSeeking (setNeed { Need.idle with kit := l.kit, cls := some l.cls } d))) ∧
  (∀ (enters : Bool) (d : Device), ∃ (needed : Prop) (n : Need) (e : Device) (fits best : Nat → Prop) (order : Prop),
    (needed ↔ ∃ i l, stagingLot d = some (i, l) ∧
      (dockedHandler d = none ∨ d.hpt.kit ≠ l.kit ∨ d.tpm.grade = some .c)) ∧
    n = (if enters then { d.asu.need with
        state := .seeking, target := none, claimSent := false, seekTimer := none, windowTimer := none
        dockWaitTimer := none }
      else d.asu.need) ∧
    e = (if enters then toSeeking d else needEval d) ∧
    (∀ h, fits h ↔ 1 ≤ h ∧ h ≤ 48 ∧ (entryAt d h).state = .free ∧ (entryAt d h).kit = n.kit ∧
      ((entryAt d h).grade = some .a ∨ (entryAt d h).grade = some .b) ∧ n.passedOver ≠ some h) ∧
    (∀ h, best h ↔ fits h ∧ ∀ j, fits j → ((entryAt d h).grade = (entryAt d j).grade ∧ h ≤ j) ∨
      ((entryAt d h).grade = some .a ∧ (entryAt d j).grade = some .b)) ∧
    (order ↔ d.hpt.presence = .present ∧ d.hpt.kitChange = none ∧
      (d.tpm.grade = some .a ∨ d.tpm.grade = some .b) ∧ anyOpen d = false ∧ n.barred = false) ∧
    (enters = true ∨ (n.state = .seeking ∧ needed) →
      (∀ c, d.hpt.kitChange = some c → c.kit = n.kit →
        e = setNeed { n with state := .kitChange, seekTimer := none } d) ∧
      ((∀ c, d.hpt.kitChange = some c → c.kit ≠ n.kit) →
        (∀ h, best h → e = offer (.claim h n.kit (n.cls.getD 0)) (setNeed { n with
          state := .claiming, target := some h, claimSent := false, seekTimer := none
          lastClass := some (n.cls.getD 0) } d)) ∧
        ((∀ h, ¬ fits h) →
          (order → e = setNeed { n with state := .kitChange, seekTimer := none } { d with
            hpt := { d.hpt with
              kitChange := some ⟨n.kit, (cfg d).kitTimeout * 60000⟩, kit := 0, soak := none, soaked := none }
            lines := { d.lines with handlerOut := d.lines.handlerOut ++ [.kit n.kit] } }) ∧
          (¬ order → e = if enters then setNeed { n with seekTimer := some 60000 }
            (offer (.seek n.kit (n.cls.getD 0)) (setNeed n d)) else d)))) ∧
    (d.asu.need.state = .claiming ∨ d.asu.need.state = .won → needed → needEval d = d) ∧
    (d.asu.need.state = .kitChange →
      (d.hpt.kitChange ≠ none → needEval d = d) ∧
      (d.hpt.kitChange = none → needed → needEval d = toSeeking d) ∧
      (d.hpt.kitChange = none → ¬ needed → needEval d = setNeed Need.idle d)) ∧
    (∀ h, d.asu.need.state = .claiming → d.asu.need.target = some h → ¬ needed → ∃ u, u = removeClaim d ∧
      needEval d = setNeed Need.idle
        (if (entryAt u h).state = .claimed ∧ (entryAt u h).station = some (ownStation d) then
          setEntry h (if (entryAt u h).parkedBy = none then
              ⟨.unknown, none, (entryAt u h).kit, (entryAt u h).grade, none, none, none⟩
            else { entryAt u h with state := .free, station := none, strength := none, timer := none }) u
        else u))) ∧
  (∀ d : Device, d.asu.need.state = .seeking ∨ d.asu.need.state = .claiming ∨ d.asu.need.state = .won →
    (∀ i l, stagingLot d = some (i, l) → dockedHandler d ≠ none ∧ d.hpt.kit = l.kit ∧ d.tpm.grade ≠ some .c) →
    (needEval d).asu.need = Need.idle ∧ (d.asu.need.state = .seeking → needEval d = setNeed Need.idle d) ∧
    (∀ h, d.asu.need.state = .won → d.asu.need.target = some h → needEval d = setNeed Need.idle
      (parkEntry h (entryAt d h).kit (entryAt d h).grade d))) ∧
  (∀ d : Device, ∃ (now : Option Nat) (u : Device), now = (stagingLot d).map (·.2.id) ∧
    u = { d with asu := { d.asu with staging := now } } ∧
    (now = d.asu.staging → stagingReport d = d) ∧
    (now ≠ d.asu.staging →
      (d.asu.staging = none → stagingReport d = u) ∧
      (d.asu.staging ≠ none → stagingLot d = none → stagingReport d = endNeed u) ∧
      ∀ i l, d.asu.staging ≠ none → stagingLot d = some (i, l) →
        (d.asu.need.state = .idle → stagingReport d = u) ∧
        (d.asu.need.state ≠ .idle → l.kit = d.asu.need.kit →
          stagingReport d = setNeed { d.asu.need with cls := some l.cls } u) ∧
        (d.asu.need.state ≠ .idle → l.kit ≠ d.asu.need.kit → stagingReport d = endNeed u))) ∧
  (∀ d : Device,
    (∀ n, setNeed n d = { d with asu := { d.asu with need := n } }) ∧
    Need.idle = ⟨.idle, 0, none, none, false, none, false, none, none, none, none⟩ ∧
    (d.asu.need.state ≠ .claiming → d.asu.need.state ≠ .won → endNeed d = setNeed Need.idle d) ∧
    (d.asu.need.state = .claiming → d.asu.need.target = none → endNeed d = setNeed Need.idle (removeClaim d)) ∧
    (∀ h, d.asu.need.state = .claiming → d.asu.need.target = some h → ∃ u, u = removeClaim d ∧
      endNeed d = setNeed Need.idle
        (if (entryAt u h).state = .claimed ∧ (entryAt u h).station = some (ownStation d) then
          setEntry h (if (entryAt u h).parkedBy = none then
              ⟨.unknown, none, (entryAt u h).kit, (entryAt u h).grade, none, none, none⟩
            else { entryAt u h with state := .free, station := none, strength := none, timer := none }) u
        else u)) ∧
    (∀ h, d.asu.need.state = .won → d.asu.need.target = some h → endNeed d = setNeed Need.idle
      (parkEntry h (entryAt d h).kit (entryAt d h).grade d))) ∧
  (∀ d : Device,
    (d.asu.need.state = .won → anyOpen d = false → wonPark d = parkDocked d) ∧
    (d.asu.need.state ≠ .won ∨ anyOpen d = true → wonPark d = d) ∧
    (d.tpm.grade = some .c → anyOpen d = false → gradeCPark d = parkDocked d) ∧
    (d.tpm.grade ≠ some .c ∨ anyOpen d = true → gradeCPark d = d))

/-! ## Results and accounts -/

/-- 4.2, 4.3, 5.3, 6.2 (R63, R65, R66): a counted result. In counting pass 0 FIRST[b] and T1 rise by 1 and the unit is
placed, then the overcount check runs; in a retest pass a unit owed is taken and placed. STU and TPM take the counted
result after that. The unit is placed in pending_next where the bin's class is RETEST and the pass is below the
insertion's retest limit, and in FINAL[b] otherwise. And: 4.2 (R65): where T1 is above Q_in and the overcount mark is
clear, `overcountCheck` sets mark and OVERCOUNT flag, raises OVERCOUNT and requests a COUNT entry (in that order: log
35); otherwise it does nothing. And: 6.2 (R103): `tpmCount` adds 1 to the sample's results while a period runs,
saturating. -/
def Obligations.CountedResults : Prop :=
  (∀ (i k : Fin 8) (b : Fin 16) (l : Lot) (d : Device), lotAt d i = some l →
    ∃ place : Accum → Accum,
      (∀ a, place a = if binClass (cfg d) b = some .retest ∧ l.acc.countingPass < (currentEntry l).retests
        then { a with pendingNext := a.pendingNext + 1 } else { a with final := a.final.set b (a.final[b] + 1) }) ∧
      (l.acc.countingPass = 0 → l.acc.t1 < 1048575 →
        rauResult i k b d = tpmCount (stuResult i k b (overcountCheck i (putLot i (some { l with
          acc := place { l.acc with first := l.acc.first.set b (l.acc.first[b] + 1), t1 := l.acc.t1 + 1 } })
            d)))) ∧
      (l.acc.countingPass ≠ 0 → 0 < l.acc.pendingNow →
        rauResult i k b d = tpmCount (stuResult i k b (putLot i (some { l with
          acc := place { l.acc with pendingNow := l.acc.pendingNow - 1 } }) d)))) ∧
  (∀ (i : Fin 8) (l : Lot) (d : Device), lotAt d i = some l →
    (l.acc.t1 ≤ l.qIn ∨ l.acc.overcountMark = true → overcountCheck i d = d) ∧
    (l.qIn < l.acc.t1 → l.acc.overcountMark = false → overcountCheck i d = holdRequest i .count false
      (raise .accounting .corrected .overcount i.val (putLot i (some { l with
        acc := { l.acc with overcountMark := true }, sticky := { l.sticky with overcount := true } }) d)))) ∧
  (∀ d : Device, tpmCount d = if d.tpm.period = none then d
    else { d with tpm := { d.tpm with results := min 1048575 (d.tpm.results + 1) } })

/-- 5.1, 5.3, 5.4 (R80, R83 to R87, R32): what STU does with a counted result. A result of bin 0 or of a retest pass
changes nothing. Otherwise the counters of the site are updated, the run of an ENABLED site that reaches its limit
disables the site or asks for a SITE_RUN hold, that of a DISABLING site only starts again, and the window counts the
result and closes where it fills. A disable takes the site to DISABLING and, while the tester is ARMED and UP, sends
MASK. -/
def Obligations.StatisticsOfACountedResult : Prop :=
  (∀ n d : Nat, bp .truncate n d = min 10000 (n * 10000 / d) ∧
    bp .nearest n d = min 10000 ((n * 10000 + d / 2) / d)) ∧
  (∀ (i k : Fin 8) (b : Fin 16) (l : Lot) (d : Device), lotAt d i = some l →
    ∃ (pass : Bool) (t : Stats) (u : Device), pass = decide (binClass (cfg d) b = some .pass) ∧
      t = { l.stats with
        siteTested := l.stats.siteTested.set k (l.stats.siteTested[k] + 1)
        sitePass := if pass then l.stats.sitePass.set k (l.stats.sitePass[k] + 1) else l.stats.sitePass
        run := l.stats.run.set k (if pass then 0 else l.stats.run[k] + 1) } ∧
      u = putLot i (some { l with stats := t }) d ∧
      (l.acc.countingPass ≠ 0 ∨ b = 0 → stuResult i k b d = d) ∧ (l.acc.countingPass = 0 → b ≠ 0 →
        (pass = true → stuResult i k b d = countWindow i true u) ∧
        (pass = false → l.stats.run[k] + 1 < (cfg d).siteRunLimit →
          stuResult i k b d = countWindow i false u) ∧
        (pass = false → (cfg d).siteRunLimit ≤ l.stats.run[k] + 1 →
          (d.tpt.mask[k] = .enabled → (cfg d).siteDisable = true →
            (cfg d).minSites ≤ (siteList.filter fun j => d.tpt.mask[j] = .enabled).length - 1 →
            stuResult i k b d = countWindow i false (clearRun i k
              (raise .tester .note .siteDisabled i.val (disableSite k u)))) ∧
          (d.tpt.mask[k] = .enabled → ((cfg d).siteDisable = false ∨
            (siteList.filter fun j => d.tpt.mask[j] = .enabled).length - 1 < (cfg d).minSites) →
            stuResult i k b d = countWindow i false (clearRun i k
              (holdRequest i (.siteRun k.val) false u))) ∧
          (d.tpt.mask[k] = .disabling → stuResult i k b d = countWindow i false (clearRun i k u))))) ∧
  (∀ (i k : Fin 8) (pass : Bool) (l : Lot) (d : Device), lotAt d i = some l → ∃ u,
    u = putLot i (some { l with stats := { l.stats with
      winResults := l.stats.winResults + 1, winPass := l.stats.winPass + (if pass then 1 else 0) } }) d ∧
    clearRun i k d = putLot i (some { l with stats := { l.stats with run := l.stats.run.set k 0 } }) d ∧
    (l.stats.winResults + 1 < (cfg d).windowSize → countWindow i pass d = u) ∧
    ((cfg d).windowSize ≤ l.stats.winResults + 1 → countWindow i pass d = windowClose i u)) ∧
  (∀ (k : Fin 8) (d : Device), ∃ (m : Vector SiteState 8) (on off : BitVec 8), m = d.tpt.mask.set k .disabling ∧
    (∀ j : Fin 8, on.getLsbD j.val = true ↔ m[j] = .enabled) ∧
    (∀ j : Fin 8, off.getLsbD j.val = true ↔ m[j] = .disabling ∧ d.tpt.arm.mask.getLsbD j.val = true ∧
      ∀ e ∈ d.tpt.outstanding, e.getLsbD j.val = false) ∧
    (d.tpt.arm.state = .armed → d.tpt.link = .up → disableSite k d = { d with
      tpt := { d.tpt with mask := m, outstanding := d.tpt.outstanding ++ [off] }
      lines := { d.lines with testerOut := d.lines.testerOut ++ [.mask on] } }) ∧
    (d.tpt.arm.state ≠ .armed ∨ d.tpt.link ≠ .up →
      disableSite k d = { d with tpt := { d.tpt with mask := m } }))

/-- 5.5 (R88 to R92, R95): a window close: the hold value, then the requests WINDOW, BIN in ascending bin order and
SITE_DELTA for the checks that fail, then the current flags and an empty window. And: 5.5, 5.7, 4.4, 1.5 (R95, R96,
R69, R16): an insertion close computes the summary with its final yield and missing share, closes a window of half
its size or more, makes the final checks, and completes: the lot goes on to its next insertion with the good count,
or to REVIEW, or to HELD with that as its resume step. And: 1.3, 1.6 (R8, R17): `enterQueued` puts the lot in QUEUED,
where a class-0 lot preempts, and `enterReview` puts it in REVIEW and offers it for release. -/
def Obligations.WindowAndInsertionClose : Prop :=
  (∀ (i : Fin 8) (l : Lot) (d : Device), lotAt d i = some l →
    ∃ (y n : Nat) (bins : List (Fin 16)) (delta : Option (Fin 8)) (u v w x : Device),
      y = bp (cfg d).rounding l.stats.winPass l.stats.winResults ∧ n = l.acc.t1 - l.acc.first[0] ∧
      u = putLot i (some { l with stats := { l.stats with
        holdValue := some ⟨l.stats.winResults, l.stats.winPass, y⟩ } }) d ∧
      v = (if y < (cfg d).windowYieldLimit then
        (if (cfg d).windowFloor then floorRequest i HoldKey.window 1 u else holdRequest i (.window none) false u)
        else u) ∧
      bins.Pairwise (· < ·) ∧ (∀ b, b ∈ bins ↔ ∃ s, binSetting (cfg d) b = some s ∧ s.cls ≠ .pass ∧
        (cfg d).nMin ≤ n ∧ s.sbl < bp (cfg d).rounding l.acc.first[b] n) ∧
      w = bins.foldl (fun e b => if (binSetting (cfg e) b).any (·.floor) then
        floorRequest i (HoldKey.bin b.val) 2 e else holdRequest i (.bin b.val none) false e) v ∧
      (∃ (quals : Fin 8 → Prop) (yield : Fin 8 → Nat),
        (∀ k, quals k ↔ w.tpt.mask[k] = .enabled ∧ (cfg w).nMin ≤ l.stats.siteTested[k]) ∧
        (∀ k, yield k = bp (cfg w).rounding l.stats.sitePass[k] l.stats.siteTested[k]) ∧
        ∀ k, delta = some k ↔ quals k ∧ (∀ j, quals j → yield k < yield j ∨ (yield k = yield j ∧ k ≤ j)) ∧
          ∃ j, quals j ∧ (cfg w).siteDeltaLimit < yield j - yield k) ∧
      x = (match delta with | some k => holdRequest i (.siteDelta k.val) false w | none => w) ∧
      windowClose i d = modifyLot i (fun m => { m with stats := { m.stats with
        winLow := decide (y < (cfg d).windowYieldLimit), binHigh := decide (bins ≠ [])
        deltaHigh := delta.isSome, winResults := 0, winPass := 0 } }) x ∧
      ((cfg d).windowSize / 2 ≤ l.stats.winResults → partialWindow i d = windowClose i d) ∧
      (l.stats.winResults < (cfg d).windowSize / 2 → partialWindow i d =
        putLot i (some { l with stats := { l.stats with winResults := 0, winPass := 0 } }) d)) ∧
  (∀ (i : Fin 8) (l : Lot) (d : Device), lotAt d i = some l → ∃ u m,
    u = putLot i (some (closeLot (cfg d) (now d) l)) d ∧ (closeLot (cfg d) (now d) l).summary = some m ∧
    m.insertion = l.cur ∧ m.closeTime = now d ∧ m.finalYield = bp (cfg d).rounding m.good l.qIn ∧
    m.missingShare = bp (cfg d).rounding m.missing l.qIn ∧
    closeInsertion i d = closeComplete i
      { finalChecks i (partialWindow i u) with
        tpt := { (finalChecks i (partialWindow i u)).tpt with lastClosed := some l.id } }) ∧
  (∀ (i : Fin 8) (l : Lot) (m : CloseSummary) (d : Device), lotAt d i = some l → l.summary = some m →
    (∃ u, u = (if m.finalYield < (cfg d).finalYieldLimit then holdRequest i .final false d else d) ∧
      finalChecks i d = if (cfg u).missingLimit < m.missingShare then holdRequest i .final false u else u) ∧
    ∃ (on : Prop) (n : Lot) (u : Device), (on ↔ 0 < m.good ∧ l.cur < l.plan.length) ∧
      n = { l with opened := false, closeOnContinue := false, completed := l.completed + 1, step := none } ∧
      u = { d with tpt := { d.tpt with silence := none } } ∧ (on → ∃ o,
        o = { n with cur := l.cur + 1, qIn := min 500000 m.good, passStarted := false } ∧
        (l.holds = [] → l.overflow = false →
          closeComplete i d = settle (enterQueued i (putLot i (some o) u))) ∧
        (l.holds ≠ [] ∨ l.overflow = true → closeComplete i d = settle (putLot i (some { o with
          state := .held, resume := some .queued, unseen := l.unseen || l.state != .held }) u))) ∧
      (¬ on →
        (l.holds = [] → l.overflow = false →
          closeComplete i d = settle (enterReview i (putLot i (some n) u))) ∧
        (l.holds ≠ [] ∨ l.overflow = true → closeComplete i d = settle (putLot i (some { n with
          state := .held, resume := some .review, unseen := l.unseen || l.state != .held }) u)))) ∧
  (∀ (i : Fin 8) (l : Lot) (d : Device), lotAt d i = some l → ∃ u, u = putLot i (some { l with
      state := .queued, resume := none }) d ∧
    enterQueued i d = settle (if l.cls = 0 then preempt u else u) ∧
    enterReview i d = offerReview i (putLot i (some { l with state := .review, resume := none }) d))

/-- R64, R67: the results RAU drops. At the ceiling of T1 in counting pass 0 the lot record changes in its SATURATED flag
alone and the fault is raised, at each such result, with OVER set where the bank held a record; a retest result is
not dropped for the ceiling and does not change T1; and no ACCOUNTING record closes FEED. A retest result with
nothing owed is stray, whatever its bin: the STRAY flag alone, and its note. -/
def Obligations.SaturatedAndStrayResultsAreDropped : Prop :=
  (∀ (i k : Fin 8) (b : Fin 16) (l : Lot) (d : Device), lotAt d i = some l →
    (l.acc.countingPass = 0 → l.acc.t1 = 1048575 →
      rauResult i k b d = raise .accounting .uncorrected .saturated i.val
        (putLot i (some { l with sticky := { l.sticky with saturated := true } }) d) ∧
      (d.ctp.accountingBank.record ≠ none → (rauResult i k b d).ctp.accountingBank.overFlag = true)) ∧
    (l.acc.countingPass ≠ 0 → l.acc.t1 = 1048575 → 0 < l.acc.pendingNow → ∃ m u,
      lotAt u i = some m ∧ m.acc.t1 = 1048575 ∧ m.acc.pendingNow = l.acc.pendingNow - 1 ∧
      rauResult i k b d = tpmCount (stuResult i k b u)) ∧
    (l.acc.countingPass ≠ 0 → l.acc.pendingNow = 0 →
      rauResult i k b d = raise .accounting .note .stray i.val
        (putLot i (some { l with sticky := { l.sticky with stray := true } }) d))) ∧
  (∀ (v : Severity) (code : FaultCode) (r : Nat) (d : Device), feedGate (raise .accounting v code r d) = feedGate d)

/-- 4.1 to 4.4 (R61, R69, R70): each rule that counts keeps the balance, and from a balanced set the close computation
makes quantities with good + reject + missing = Q_in + excess, both pending counters 0 and the set balanced. And: 4.4
(R69, R70, R76): the close summary: good is the sum of FINAL over the bins of class PASS, reject that over the bins
of class FAIL or RETEST, yield and missing share are of Q_in; the pending counts go to unretested, and the lot's
accounting marks become their union with the sticky flags. -/
def Obligations.CountingKeepsTheBalance : Prop :=
  (∀ (c : ConfigBlock) (l : Lot) (b : Fin 16) (t : Nat), Balanced l.acc →
    (l.acc.t1 < 1048575 → Balanced (firstPassAcc c l b l.acc)) ∧
    (0 < l.acc.pendingNow → Balanced (retestAcc c l b l.acc)) ∧
    Balanced (passBoundary l.acc) ∧
    ∃ m, (closeLot c t l).summary = some m ∧ m.qIn = l.qIn ∧ m.t1 = l.acc.t1 ∧
      m.missing = l.acc.final[0] + (l.acc.unretested + l.acc.pendingNow + l.acc.pendingNext) + (l.qIn - l.acc.t1) ∧
      m.excess = l.acc.t1 - l.qIn ∧ m.good + m.reject + m.missing = m.qIn + m.excess ∧
      (closeLot c t l).acc.pendingNow = 0 ∧ (closeLot c t l).acc.pendingNext = 0 ∧
      Balanced (closeLot c t l).acc) ∧
  (∀ (c : ConfigBlock) (l : Lot) (t : Nat), ∃ (m : CloseSummary) (sum : (Fin 16 → Prop) → Nat → Prop),
    (∀ p n, sum p n ↔ ∃ bins : List (Fin 16), bins.Nodup ∧ (∀ b, b ∈ bins ↔ p b) ∧
      n = (bins.map fun b => l.acc.final[b]).sum) ∧
    sum (fun b => binClass c b = some .pass) m.good ∧
    sum (fun b => binClass c b = some .fail ∨ binClass c b = some .retest) m.reject ∧
    closeLot c t l = { l with
      acc := { l.acc with
        unretested := l.acc.unretested + l.acc.pendingNow + l.acc.pendingNext, pendingNow := 0, pendingNext := 0 }
      marks := ⟨l.marks.saturated || l.sticky.saturated, l.marks.overcount || l.sticky.overcount,
        l.marks.stray || l.sticky.stray, l.marks.late || l.sticky.late, l.marks.maskDrop || l.sticky.maskDrop⟩
      summary := some m } ∧
    m.insertion = l.cur ∧ m.closeTime = t ∧ m.finalYield = bp c.rounding m.good l.qIn ∧
    m.missingShare = bp c.rounding m.missing l.qIn)

/-! ## Rules over all states -/

/-- Log 5 and sections 1.3, 2.2, 2.3, 3.3, 8.3: the checks after an event leave every lot's identity, plan, quantities,
holds, marks and close summary, the records, the floor-hold table, the banks but the FLOOR bank, the line state, the
score and the timers of the floor line, and the responses and bulletins sent, as they were; and a lot that is neither
QUEUED nor in STAGING altogether. -/
def Obligations.SettlingLeavesTheRest : Prop := ∀ d : Device, SettleFrame d (settle d)

/-- 11.4 (R206): of any faults taken into an empty bank the record is the first of the greatest severity, and OVER is set
exactly when there was more than one. And: 11.4 (R206): `raise` takes the fault, with its severity, code, reference
and the present time, into the one bank named and changes nothing else. -/
def Obligations.FaultBankKeepsTheWorst : Prop :=
  (∀ (fs : List FaultRecord) (b : FaultBank), b = fs.foldl takeFault ⟨none, false⟩ →
    (fs = [] → b.record = none) ∧
    (fs ≠ [] → ∃ r before after, b.record = some r ∧ fs = before ++ r :: after ∧
      (∀ f ∈ before, f.severity.rank < r.severity.rank) ∧ ∀ f ∈ after, f.severity.rank ≤ r.severity.rank) ∧
    (b.overFlag = true ↔ 2 ≤ fs.length)) ∧
  (∀ (v : Severity) (code : FaultCode) (r : Nat) (d : Device), ∃ f : FaultRecord, f = ⟨v, code, r, now d⟩ ∧
    raise .floor v code r d = { d with ctp := { d.ctp with floorBank := takeFault d.ctp.floorBank f } } ∧
    raise .handler v code r d = { d with ctp := { d.ctp with handlerBank := takeFault d.ctp.handlerBank f } } ∧
    raise .tester v code r d = { d with ctp := { d.ctp with testerBank := takeFault d.ctp.testerBank f } } ∧
    raise .accounting v code r d =
      { d with ctp := { d.ctp with accountingBank := takeFault d.ctp.accountingBank f } } ∧
    now d = d.ctp.joinClock)

/-- 1.3 (R5, R6): renumbering gives the lots 1 to n and keeps their order, other fields and slots as they are; and the
lot picked in queue order is one that no other comes before. -/
def Obligations.QueueOrderAndRenumbering : Prop :=
  (∀ d : Device, (∀ i j l m, lotAt d i = some l → lotAt d j = some m → i ≠ j → l.seq ≠ m.seq) →
    ∃ rank : Fin 8 → Nat, (renumber d).lmg.sequence = (lotList d).length ∧
      (∀ i, lotAt (renumber d) i = (lotAt d i).map fun l => { l with seq := rank i }) ∧
      (∀ i l, lotAt d i = some l → 1 ≤ rank i ∧ rank i ≤ (lotList d).length) ∧
      (∀ i j l m, lotAt d i = some l → lotAt d j = some m → (rank i < rank j ↔ l.seq < m.seq))) ∧
  (∀ (d : Device) (p : Lot → Bool),
    (firstInQueueOrder d p = none ↔ ∀ i l, lotAt d i = some l → p l = false) ∧
    (∀ i l, firstInQueueOrder d p = some (i, l) → lotAt d i = some l ∧ p l = true ∧
      ∀ j m, lotAt d j = some m → p m = true → queueBefore m l = false))

/-- 9.4, 10.2 (R168, R182): the next tag and the next release number are the first after the counter, the last being
followed by 1, that are not in use; few enough in use, there is one. -/
def Obligations.NextTagAndNumberAreFree : Prop :=
  (∀ d : Device, d.hdu.ownTag ≤ 255 →
    d.hdu.table.length + d.hdu.holdsInPlay.length + d.hdu.liftsInPlay.length < 255 →
    ∃ k, nextTag d = tagAfter^[k + 1] d.hdu.ownTag ∧ 1 ≤ nextTag d ∧ nextTag d ≤ 255 ∧
      tagInUse d (nextTag d) = false ∧ ∀ j, j < k → tagInUse d (tagAfter^[j + 1] d.hdu.ownTag) = true) ∧
  (∀ d : Device, d.rlu.counter ≤ 65535 → d.rlu.records.length ≤ 6 →
    ∃ k, k ≤ 6 ∧ nextNumber d = numberAfter^[k + 1] d.rlu.counter ∧ 1 ≤ nextNumber d ∧ nextNumber d ≤ 65535 ∧
      (∀ r ∈ d.rlu.records, r.number ≠ nextNumber d) ∧
      ∀ j, j < k → ∃ r ∈ d.rlu.records, r.number = numberAfter^[j + 1] d.rlu.counter)

/-- 10.4 (R186, R188): a new floor hold recalls every DELAYED or READY record whose programs contain its program, with
the entry as cause and the timer stopped, and leaves the others; the removal of an entry returns the records it
recalled, or gives them the first entry that still covers them. And: 9.4 (R169): before the records, `applyFloorHold`
requests a tracked REMOTE (origin, tag) entry of every lot whose plan names the program, in ascending slot order, and
changes nothing else. -/
def Obligations.RecallAndReturn : Prop :=
  (∀ (e : FloorHold) (d : Device), (applyFloorHold e d).rlu = { d.rlu with
    records := d.rlu.records.map fun r =>
      if r.programs.contains e.program ∧ r.state ≠ .recalled then
        { r with state := .recalled, timer := none, cause := some (.entry e.origin e.tag) } else r }) ∧
  (∀ (o t : Nat) (d : Device), returnRecords o t d = { d with rlu := { d.rlu with
    records := d.rlu.records.map fun r =>
      if r.state = .recalled ∧ r.cause = some (.entry o t) then
        match d.hdu.table.find? fun e => r.programs.contains e.program with
        | some e => { r with timer := none, cause := some (.entry e.origin e.tag) }
        | none =>
          if (cfg d).releaseDelay = 0 then { r with state := .ready, timer := none, cause := none }
          else { r with
            state := .delayed, timer := some ((cfg d).releaseDelay * 60000), cause := none }
      else r } }) ∧
  (∀ (e : FloorHold) (d : Device), ∃ u : Device,
    u = ([0, 1, 2, 3, 4, 5, 6, 7] : List (Fin 8)).foldl (fun x i =>
      match lotAt x i with
      | some l => if ∃ p ∈ l.plan, p.program = e.program then holdRequest i (.remote e.origin e.tag) false x else x
      | none => x) d ∧
    applyFloorHold e d = { u with rlu := (applyFloorHold e d).rlu })

/-- 12.1 (R209): every frame that the device closes with its CRC passes the CRC check. -/
def Obligations.ClosedFramesPassTheirCheck : Prop := ∀ body : List Byte, framePasses (closeFrame body) = true

/-- 12.1, 12.4, 7.1 (R114, R209, R210): a bulletin sent by a station is received by another as the command with its kind,
origin and content, for every field at every value its place admits. -/
def Obligations.BulletinsAreReceivedAsSent : Prop :=
  ∀ own : Nat, own < 32 →
    (∀ p t r, HoldField.wf ⟨p, t, r⟩ = true →
      floorReceived (bulletinFrame own ⟨.hold p t r, none⟩) = .holdReceived own p t r) ∧
    (∀ p t, HoldField.wf ⟨p, t, 0⟩ = true →
      floorReceived (bulletinFrame own ⟨.lift p t, none⟩) = .liftReceived own p t 0) ∧
    (∀ h k p, h < 256 → k < 256 → p < 256 →
      floorReceived (bulletinFrame own ⟨.claim h k p, none⟩) = .claimReceived own h k p) ∧
    (∀ h k g, h < 256 → k < 256 →
      floorReceived (bulletinFrame own ⟨.dock h k g, none⟩) = .dockReceived own h k (gradeCode g) ∧
      floorReceived (bulletinFrame own ⟨.park h k g, none⟩) = .parkReceived own h k (gradeCode g)) ∧
    (∀ k p, k < 256 → p < 256 →
      floorReceived (bulletinFrame own ⟨.seek k p, none⟩) = .seekReceived own k p) ∧
    (∀ c, StatusField.wf c = true →
      floorReceived (bulletinFrame own ⟨.status, some c⟩) = .statusReceived own c)

/-! ## What every step keeps -/

/-- Each of the invariants below holds right after reset. -/
def Obligations.InvariantsHoldAtReset : Prop :=
  PinsFollow State.reset.dev ∧ AccountsBalance State.reset.dev ∧ HeldIffHolds State.reset.dev ∧
  HoldSetsSound State.reset.dev ∧ OneCell State.reset.dev ∧ QueueSound State.reset.dev.fli ∧
  ScoreSound State.reset.dev ∧ ParkedSound State.reset.dev

/-- 3.6, 11.5 (R55, R56, R208): FEED, ATTN and effective run follow their conditions in every state a step gives. -/
def Obligations.EveryStepKeepsThePinsFollowing : Prop :=
  ∀ s t : State, PinsFollow s.dev → step s = .next t → PinsFollow t.dev

/-- 4.1, 4.4, 10.1 (R61, R70, R181): no step unbalances an accumulator set, a close summary or a release record. -/
def Obligations.EveryStepKeepsTheAccountsBalanced : Prop :=
  ∀ s t : State, AccountsBalance s.dev → step s = .next t → AccountsBalance t.dev

/-- 1.4, 9.1 (R9, R160, R161): in every state a step gives, a lot is HELD exactly when its hold set is non-empty or its
overflow mark is set, and a hold set has at most 6 entries and no key twice. -/
def Obligations.EveryStepKeepsHeldLotsHeld : Prop :=
  ∀ s t : State, HeldIffHolds s.dev → HoldSetsSound s.dev → step s = .next t →
    HeldIffHolds t.dev ∧ HoldSetsSound t.dev

/-- 1.3, 1.4 (R7, R9, R13): in every state a step gives, at most one lot has an open insertion or is in STAGING, and a
lot in RUNNING, RETEST or CLOSING, or HELD to resume in the middle of an insertion, has its insertion open. -/
def Obligations.EveryStepKeepsOneCell : Prop :=
  ∀ s t : State, OneCell s.dev → step s = .next t → OneCell t.dev

/-- 7.6 (R129 to R131): every step keeps the transmit queue in order and within its 12 places. -/
def Obligations.EveryStepKeepsTheQueueSound : Prop :=
  ∀ s t : State, QueueSound s.dev.fli → step s = .next t → QueueSound t.dev.fli

/-- 7.5 (R126): every step keeps the line error score at 71 or less, and at 63 or less where an attempt may begin. -/
def Obligations.EveryStepKeepsTheScoreInRange : Prop :=
  ∀ s t : State, ScoreSound s.dev → step s = .next t → ScoreSound t.dev

/-- 8.2 (R143): every step keeps the own parked list at 4 handlers or fewer, none twice, each FREE and parked by the own
station. -/
def Obligations.EveryStepKeepsTheParkedListSound : Prop :=
  ∀ s t : State, ParkedSound s.dev → step s = .next t → ParkedSound t.dev

/-- 11.2 (R197 to R200), 7.1 (R114): a device in JOINED stays JOINED with its configuration and station number but for a
power-on reset, a warm reset included; a device in CONFIG leaves it by JOIN alone (JOIN may have waited for a warm
reset's end). -/
def Obligations.OnlyPowerOnLeavesJoined : Prop :=
  ∀ (c : Instr) (s t : State), exec c s = .next t →
    (touchesPowerOn c = false ∨ (s.dev.ctp.hold ≠ .powerOn ∧ ∃ b, c = .warmReset b)) →
    (s.dev.ctp.device = .joined → t.dev.ctp.device = .joined ∧ t.dev.ctp.config = s.dev.ctp.config) ∧
    t.dev.fli.station = s.dev.fli.station ∧
    (s.dev.ctp.device = .config → c ≠ .join → c ≠ .warmResetEnd → t.dev.ctp.device = .config)

/-- 11.4 (R206, R207): an UNCORRECTED record leaves its bank by CLEAR_FAULT of that bank or by a power-on reset alone; no
other command, and no warm reset, removes it. -/
def Obligations.UncorrectedRecordsStand : Prop :=
  ∀ (n : BankName) (c : Instr) (s t : State), exec c s = .next t → uncorrectedIn s.dev n →
    (touchesPowerOn c = false ∨ (s.dev.ctp.hold ≠ .powerOn ∧ ∃ b, c = .warmReset b)) →
    (∀ b, c = .clearFault b → bankOfCode b ≠ some n) →
    (c = .warmResetEnd → ∀ b, .clearFault b ∈ s.dev.ctp.waiting → bankOfCode b ≠ some n) →
    uncorrectedIn t.dev n
end

