-- ==== Sys2Proof/Laws/State.lean ====
section
/-! SUPPORT. One lemma per device field per update: what each named update leaves alone (all true by
reduction), and what it puts there. -/

namespace Sys2Proof.Machine

/-! ## putLot -/

@[simp] theorem putLot_ctp (i : Fin 8) (l : Option Lot) (d : Device) : (putLot i l d).ctp = d.ctp := rfl
@[simp] theorem putLot_tpt (i : Fin 8) (l : Option Lot) (d : Device) : (putLot i l d).tpt = d.tpt := rfl
@[simp] theorem putLot_hpt (i : Fin 8) (l : Option Lot) (d : Device) : (putLot i l d).hpt = d.hpt := rfl
@[simp] theorem putLot_tpm (i : Fin 8) (l : Option Lot) (d : Device) : (putLot i l d).tpm = d.tpm := rfl
@[simp] theorem putLot_fli (i : Fin 8) (l : Option Lot) (d : Device) : (putLot i l d).fli = d.fli := rfl
@[simp] theorem putLot_asu (i : Fin 8) (l : Option Lot) (d : Device) : (putLot i l d).asu = d.asu := rfl
@[simp] theorem putLot_hdu (i : Fin 8) (l : Option Lot) (d : Device) : (putLot i l d).hdu = d.hdu := rfl
@[simp] theorem putLot_rlu (i : Fin 8) (l : Option Lot) (d : Device) : (putLot i l d).rlu = d.rlu := rfl
@[simp] theorem putLot_pins (i : Fin 8) (l : Option Lot) (d : Device) : (putLot i l d).pins = d.pins := rfl
@[simp] theorem putLot_lines (i : Fin 8) (l : Option Lot) (d : Device) : (putLot i l d).lines = d.lines := rfl

/-! ## modifyLot -/

@[simp] theorem modifyLot_ctp (i : Fin 8) (f : Lot → Lot) (d : Device) : (modifyLot i f d).ctp = d.ctp := rfl
@[simp] theorem modifyLot_tpt (i : Fin 8) (f : Lot → Lot) (d : Device) : (modifyLot i f d).tpt = d.tpt := rfl
@[simp] theorem modifyLot_hpt (i : Fin 8) (f : Lot → Lot) (d : Device) : (modifyLot i f d).hpt = d.hpt := rfl
@[simp] theorem modifyLot_tpm (i : Fin 8) (f : Lot → Lot) (d : Device) : (modifyLot i f d).tpm = d.tpm := rfl
@[simp] theorem modifyLot_fli (i : Fin 8) (f : Lot → Lot) (d : Device) : (modifyLot i f d).fli = d.fli := rfl
@[simp] theorem modifyLot_asu (i : Fin 8) (f : Lot → Lot) (d : Device) : (modifyLot i f d).asu = d.asu := rfl
@[simp] theorem modifyLot_hdu (i : Fin 8) (f : Lot → Lot) (d : Device) : (modifyLot i f d).hdu = d.hdu := rfl
@[simp] theorem modifyLot_rlu (i : Fin 8) (f : Lot → Lot) (d : Device) : (modifyLot i f d).rlu = d.rlu := rfl
@[simp] theorem modifyLot_pins (i : Fin 8) (f : Lot → Lot) (d : Device) : (modifyLot i f d).pins = d.pins := rfl
@[simp] theorem modifyLot_lines (i : Fin 8) (f : Lot → Lot) (d : Device) : (modifyLot i f d).lines = d.lines := rfl

/-! ## sendTester -/

@[simp] theorem sendTester_ctp (m : TesterOut) (d : Device) : (sendTester m d).ctp = d.ctp := rfl
@[simp] theorem sendTester_lmg (m : TesterOut) (d : Device) : (sendTester m d).lmg = d.lmg := rfl
@[simp] theorem sendTester_tpt (m : TesterOut) (d : Device) : (sendTester m d).tpt = d.tpt := rfl
@[simp] theorem sendTester_hpt (m : TesterOut) (d : Device) : (sendTester m d).hpt = d.hpt := rfl
@[simp] theorem sendTester_tpm (m : TesterOut) (d : Device) : (sendTester m d).tpm = d.tpm := rfl
@[simp] theorem sendTester_fli (m : TesterOut) (d : Device) : (sendTester m d).fli = d.fli := rfl
@[simp] theorem sendTester_asu (m : TesterOut) (d : Device) : (sendTester m d).asu = d.asu := rfl
@[simp] theorem sendTester_hdu (m : TesterOut) (d : Device) : (sendTester m d).hdu = d.hdu := rfl
@[simp] theorem sendTester_rlu (m : TesterOut) (d : Device) : (sendTester m d).rlu = d.rlu := rfl
@[simp] theorem sendTester_pins (m : TesterOut) (d : Device) : (sendTester m d).pins = d.pins := rfl

/-! ## sendHandler -/

@[simp] theorem sendHandler_ctp (m : HandlerOut) (d : Device) : (sendHandler m d).ctp = d.ctp := rfl
@[simp] theorem sendHandler_lmg (m : HandlerOut) (d : Device) : (sendHandler m d).lmg = d.lmg := rfl
@[simp] theorem sendHandler_tpt (m : HandlerOut) (d : Device) : (sendHandler m d).tpt = d.tpt := rfl
@[simp] theorem sendHandler_hpt (m : HandlerOut) (d : Device) : (sendHandler m d).hpt = d.hpt := rfl
@[simp] theorem sendHandler_tpm (m : HandlerOut) (d : Device) : (sendHandler m d).tpm = d.tpm := rfl
@[simp] theorem sendHandler_fli (m : HandlerOut) (d : Device) : (sendHandler m d).fli = d.fli := rfl
@[simp] theorem sendHandler_asu (m : HandlerOut) (d : Device) : (sendHandler m d).asu = d.asu := rfl
@[simp] theorem sendHandler_hdu (m : HandlerOut) (d : Device) : (sendHandler m d).hdu = d.hdu := rfl
@[simp] theorem sendHandler_rlu (m : HandlerOut) (d : Device) : (sendHandler m d).rlu = d.rlu := rfl
@[simp] theorem sendHandler_pins (m : HandlerOut) (d : Device) : (sendHandler m d).pins = d.pins := rfl

/-! ## sendFloor -/

@[simp] theorem sendFloor_ctp (m : FloorOut) (d : Device) : (sendFloor m d).ctp = d.ctp := rfl
@[simp] theorem sendFloor_lmg (m : FloorOut) (d : Device) : (sendFloor m d).lmg = d.lmg := rfl
@[simp] theorem sendFloor_tpt (m : FloorOut) (d : Device) : (sendFloor m d).tpt = d.tpt := rfl
@[simp] theorem sendFloor_hpt (m : FloorOut) (d : Device) : (sendFloor m d).hpt = d.hpt := rfl
@[simp] theorem sendFloor_tpm (m : FloorOut) (d : Device) : (sendFloor m d).tpm = d.tpm := rfl
@[simp] theorem sendFloor_fli (m : FloorOut) (d : Device) : (sendFloor m d).fli = d.fli := rfl
@[simp] theorem sendFloor_asu (m : FloorOut) (d : Device) : (sendFloor m d).asu = d.asu := rfl
@[simp] theorem sendFloor_hdu (m : FloorOut) (d : Device) : (sendFloor m d).hdu = d.hdu := rfl
@[simp] theorem sendFloor_rlu (m : FloorOut) (d : Device) : (sendFloor m d).rlu = d.rlu := rfl
@[simp] theorem sendFloor_pins (m : FloorOut) (d : Device) : (sendFloor m d).pins = d.pins := rfl

/-! ## respond -/

@[simp] theorem respond_ctp (r : Response) (d : Device) : (respond r d).ctp = d.ctp := rfl
@[simp] theorem respond_lmg (r : Response) (d : Device) : (respond r d).lmg = d.lmg := rfl
@[simp] theorem respond_tpt (r : Response) (d : Device) : (respond r d).tpt = d.tpt := rfl
@[simp] theorem respond_hpt (r : Response) (d : Device) : (respond r d).hpt = d.hpt := rfl
@[simp] theorem respond_tpm (r : Response) (d : Device) : (respond r d).tpm = d.tpm := rfl
@[simp] theorem respond_fli (r : Response) (d : Device) : (respond r d).fli = d.fli := rfl
@[simp] theorem respond_asu (r : Response) (d : Device) : (respond r d).asu = d.asu := rfl
@[simp] theorem respond_hdu (r : Response) (d : Device) : (respond r d).hdu = d.hdu := rfl
@[simp] theorem respond_rlu (r : Response) (d : Device) : (respond r d).rlu = d.rlu := rfl
@[simp] theorem respond_pins (r : Response) (d : Device) : (respond r d).pins = d.pins := rfl

/-! ## setSite -/

@[simp] theorem setSite_ctp (k : Fin 8) (v : SiteState) (d : Device) : (setSite k v d).ctp = d.ctp := rfl
@[simp] theorem setSite_lmg (k : Fin 8) (v : SiteState) (d : Device) : (setSite k v d).lmg = d.lmg := rfl
@[simp] theorem setSite_hpt (k : Fin 8) (v : SiteState) (d : Device) : (setSite k v d).hpt = d.hpt := rfl
@[simp] theorem setSite_tpm (k : Fin 8) (v : SiteState) (d : Device) : (setSite k v d).tpm = d.tpm := rfl
@[simp] theorem setSite_fli (k : Fin 8) (v : SiteState) (d : Device) : (setSite k v d).fli = d.fli := rfl
@[simp] theorem setSite_asu (k : Fin 8) (v : SiteState) (d : Device) : (setSite k v d).asu = d.asu := rfl
@[simp] theorem setSite_hdu (k : Fin 8) (v : SiteState) (d : Device) : (setSite k v d).hdu = d.hdu := rfl
@[simp] theorem setSite_rlu (k : Fin 8) (v : SiteState) (d : Device) : (setSite k v d).rlu = d.rlu := rfl
@[simp] theorem setSite_pins (k : Fin 8) (v : SiteState) (d : Device) : (setSite k v d).pins = d.pins := rfl
@[simp] theorem setSite_lines (k : Fin 8) (v : SiteState) (d : Device) : (setSite k v d).lines = d.lines := rfl

/-! ## clearArm -/

@[simp] theorem clearArm_ctp (d : Device) : (clearArm d).ctp = d.ctp := rfl
@[simp] theorem clearArm_lmg (d : Device) : (clearArm d).lmg = d.lmg := rfl
@[simp] theorem clearArm_hpt (d : Device) : (clearArm d).hpt = d.hpt := rfl
@[simp] theorem clearArm_tpm (d : Device) : (clearArm d).tpm = d.tpm := rfl
@[simp] theorem clearArm_fli (d : Device) : (clearArm d).fli = d.fli := rfl
@[simp] theorem clearArm_asu (d : Device) : (clearArm d).asu = d.asu := rfl
@[simp] theorem clearArm_hdu (d : Device) : (clearArm d).hdu = d.hdu := rfl
@[simp] theorem clearArm_rlu (d : Device) : (clearArm d).rlu = d.rlu := rfl
@[simp] theorem clearArm_pins (d : Device) : (clearArm d).pins = d.pins := rfl
@[simp] theorem clearArm_lines (d : Device) : (clearArm d).lines = d.lines := rfl

/-! ## setTpt -/

@[simp] theorem setTpt_ctp (f : Tpt → Tpt) (d : Device) : (setTpt f d).ctp = d.ctp := rfl
@[simp] theorem setTpt_lmg (f : Tpt → Tpt) (d : Device) : (setTpt f d).lmg = d.lmg := rfl
@[simp] theorem setTpt_hpt (f : Tpt → Tpt) (d : Device) : (setTpt f d).hpt = d.hpt := rfl
@[simp] theorem setTpt_tpm (f : Tpt → Tpt) (d : Device) : (setTpt f d).tpm = d.tpm := rfl
@[simp] theorem setTpt_fli (f : Tpt → Tpt) (d : Device) : (setTpt f d).fli = d.fli := rfl
@[simp] theorem setTpt_asu (f : Tpt → Tpt) (d : Device) : (setTpt f d).asu = d.asu := rfl
@[simp] theorem setTpt_hdu (f : Tpt → Tpt) (d : Device) : (setTpt f d).hdu = d.hdu := rfl
@[simp] theorem setTpt_rlu (f : Tpt → Tpt) (d : Device) : (setTpt f d).rlu = d.rlu := rfl
@[simp] theorem setTpt_pins (f : Tpt → Tpt) (d : Device) : (setTpt f d).pins = d.pins := rfl
@[simp] theorem setTpt_lines (f : Tpt → Tpt) (d : Device) : (setTpt f d).lines = d.lines := rfl

/-! ## setHpt -/

@[simp] theorem setHpt_ctp (f : Hpt → Hpt) (d : Device) : (setHpt f d).ctp = d.ctp := rfl
@[simp] theorem setHpt_lmg (f : Hpt → Hpt) (d : Device) : (setHpt f d).lmg = d.lmg := rfl
@[simp] theorem setHpt_tpt (f : Hpt → Hpt) (d : Device) : (setHpt f d).tpt = d.tpt := rfl
@[simp] theorem setHpt_tpm (f : Hpt → Hpt) (d : Device) : (setHpt f d).tpm = d.tpm := rfl
@[simp] theorem setHpt_fli (f : Hpt → Hpt) (d : Device) : (setHpt f d).fli = d.fli := rfl
@[simp] theorem setHpt_asu (f : Hpt → Hpt) (d : Device) : (setHpt f d).asu = d.asu := rfl
@[simp] theorem setHpt_hdu (f : Hpt → Hpt) (d : Device) : (setHpt f d).hdu = d.hdu := rfl
@[simp] theorem setHpt_rlu (f : Hpt → Hpt) (d : Device) : (setHpt f d).rlu = d.rlu := rfl
@[simp] theorem setHpt_pins (f : Hpt → Hpt) (d : Device) : (setHpt f d).pins = d.pins := rfl
@[simp] theorem setHpt_lines (f : Hpt → Hpt) (d : Device) : (setHpt f d).lines = d.lines := rfl

/-! ## setTpm -/

@[simp] theorem setTpm_ctp (f : Tpm → Tpm) (d : Device) : (setTpm f d).ctp = d.ctp := rfl
@[simp] theorem setTpm_lmg (f : Tpm → Tpm) (d : Device) : (setTpm f d).lmg = d.lmg := rfl
@[simp] theorem setTpm_tpt (f : Tpm → Tpm) (d : Device) : (setTpm f d).tpt = d.tpt := rfl
@[simp] theorem setTpm_hpt (f : Tpm → Tpm) (d : Device) : (setTpm f d).hpt = d.hpt := rfl
@[simp] theorem setTpm_fli (f : Tpm → Tpm) (d : Device) : (setTpm f d).fli = d.fli := rfl
@[simp] theorem setTpm_asu (f : Tpm → Tpm) (d : Device) : (setTpm f d).asu = d.asu := rfl
@[simp] theorem setTpm_hdu (f : Tpm → Tpm) (d : Device) : (setTpm f d).hdu = d.hdu := rfl
@[simp] theorem setTpm_rlu (f : Tpm → Tpm) (d : Device) : (setTpm f d).rlu = d.rlu := rfl
@[simp] theorem setTpm_pins (f : Tpm → Tpm) (d : Device) : (setTpm f d).pins = d.pins := rfl
@[simp] theorem setTpm_lines (f : Tpm → Tpm) (d : Device) : (setTpm f d).lines = d.lines := rfl

/-! ## setFli -/

@[simp] theorem setFli_ctp (f : Fli → Fli) (d : Device) : (setFli f d).ctp = d.ctp := rfl
@[simp] theorem setFli_lmg (f : Fli → Fli) (d : Device) : (setFli f d).lmg = d.lmg := rfl
@[simp] theorem setFli_tpt (f : Fli → Fli) (d : Device) : (setFli f d).tpt = d.tpt := rfl
@[simp] theorem setFli_hpt (f : Fli → Fli) (d : Device) : (setFli f d).hpt = d.hpt := rfl
@[simp] theorem setFli_tpm (f : Fli → Fli) (d : Device) : (setFli f d).tpm = d.tpm := rfl
@[simp] theorem setFli_asu (f : Fli → Fli) (d : Device) : (setFli f d).asu = d.asu := rfl
@[simp] theorem setFli_hdu (f : Fli → Fli) (d : Device) : (setFli f d).hdu = d.hdu := rfl
@[simp] theorem setFli_rlu (f : Fli → Fli) (d : Device) : (setFli f d).rlu = d.rlu := rfl
@[simp] theorem setFli_pins (f : Fli → Fli) (d : Device) : (setFli f d).pins = d.pins := rfl
@[simp] theorem setFli_lines (f : Fli → Fli) (d : Device) : (setFli f d).lines = d.lines := rfl

/-! ## setCtp -/

@[simp] theorem setCtp_lmg (f : Ctp → Ctp) (d : Device) : (setCtp f d).lmg = d.lmg := rfl
@[simp] theorem setCtp_tpt (f : Ctp → Ctp) (d : Device) : (setCtp f d).tpt = d.tpt := rfl
@[simp] theorem setCtp_hpt (f : Ctp → Ctp) (d : Device) : (setCtp f d).hpt = d.hpt := rfl
@[simp] theorem setCtp_tpm (f : Ctp → Ctp) (d : Device) : (setCtp f d).tpm = d.tpm := rfl
@[simp] theorem setCtp_fli (f : Ctp → Ctp) (d : Device) : (setCtp f d).fli = d.fli := rfl
@[simp] theorem setCtp_asu (f : Ctp → Ctp) (d : Device) : (setCtp f d).asu = d.asu := rfl
@[simp] theorem setCtp_hdu (f : Ctp → Ctp) (d : Device) : (setCtp f d).hdu = d.hdu := rfl
@[simp] theorem setCtp_rlu (f : Ctp → Ctp) (d : Device) : (setCtp f d).rlu = d.rlu := rfl
@[simp] theorem setCtp_pins (f : Ctp → Ctp) (d : Device) : (setCtp f d).pins = d.pins := rfl
@[simp] theorem setCtp_lines (f : Ctp → Ctp) (d : Device) : (setCtp f d).lines = d.lines := rfl

/-! ## setHdu -/

@[simp] theorem setHdu_ctp (f : Hdu → Hdu) (d : Device) : (setHdu f d).ctp = d.ctp := rfl
@[simp] theorem setHdu_lmg (f : Hdu → Hdu) (d : Device) : (setHdu f d).lmg = d.lmg := rfl
@[simp] theorem setHdu_tpt (f : Hdu → Hdu) (d : Device) : (setHdu f d).tpt = d.tpt := rfl
@[simp] theorem setHdu_hpt (f : Hdu → Hdu) (d : Device) : (setHdu f d).hpt = d.hpt := rfl
@[simp] theorem setHdu_tpm (f : Hdu → Hdu) (d : Device) : (setHdu f d).tpm = d.tpm := rfl
@[simp] theorem setHdu_fli (f : Hdu → Hdu) (d : Device) : (setHdu f d).fli = d.fli := rfl
@[simp] theorem setHdu_asu (f : Hdu → Hdu) (d : Device) : (setHdu f d).asu = d.asu := rfl
@[simp] theorem setHdu_rlu (f : Hdu → Hdu) (d : Device) : (setHdu f d).rlu = d.rlu := rfl
@[simp] theorem setHdu_pins (f : Hdu → Hdu) (d : Device) : (setHdu f d).pins = d.pins := rfl
@[simp] theorem setHdu_lines (f : Hdu → Hdu) (d : Device) : (setHdu f d).lines = d.lines := rfl

/-! ## stopIdle -/

@[simp] theorem stopIdle_ctp (d : Device) : (stopIdle d).ctp = d.ctp := rfl
@[simp] theorem stopIdle_lmg (d : Device) : (stopIdle d).lmg = d.lmg := rfl
@[simp] theorem stopIdle_tpt (d : Device) : (stopIdle d).tpt = d.tpt := rfl
@[simp] theorem stopIdle_hpt (d : Device) : (stopIdle d).hpt = d.hpt := rfl
@[simp] theorem stopIdle_tpm (d : Device) : (stopIdle d).tpm = d.tpm := rfl
@[simp] theorem stopIdle_fli (d : Device) : (stopIdle d).fli = d.fli := rfl
@[simp] theorem stopIdle_hdu (d : Device) : (stopIdle d).hdu = d.hdu := rfl
@[simp] theorem stopIdle_rlu (d : Device) : (stopIdle d).rlu = d.rlu := rfl
@[simp] theorem stopIdle_pins (d : Device) : (stopIdle d).pins = d.pins := rfl
@[simp] theorem stopIdle_lines (d : Device) : (stopIdle d).lines = d.lines := rfl
@[simp] theorem stopIdle_idleTimer (d : Device) : (stopIdle d).asu.idleTimer = none := rfl
@[simp] theorem stopIdle_need (d : Device) : (stopIdle d).asu.need = d.asu.need := rfl
@[simp] theorem stopIdle_table (d : Device) : (stopIdle d).asu.table = d.asu.table := rfl
@[simp] theorem stopIdle_parked (d : Device) : (stopIdle d).asu.parked = d.asu.parked := rfl

/-! ## setNeed -/

@[simp] theorem setNeed_ctp (n : Need) (d : Device) : (setNeed n d).ctp = d.ctp := rfl
@[simp] theorem setNeed_lmg (n : Need) (d : Device) : (setNeed n d).lmg = d.lmg := rfl
@[simp] theorem setNeed_tpt (n : Need) (d : Device) : (setNeed n d).tpt = d.tpt := rfl
@[simp] theorem setNeed_hpt (n : Need) (d : Device) : (setNeed n d).hpt = d.hpt := rfl
@[simp] theorem setNeed_tpm (n : Need) (d : Device) : (setNeed n d).tpm = d.tpm := rfl
@[simp] theorem setNeed_fli (n : Need) (d : Device) : (setNeed n d).fli = d.fli := rfl
@[simp] theorem setNeed_hdu (n : Need) (d : Device) : (setNeed n d).hdu = d.hdu := rfl
@[simp] theorem setNeed_rlu (n : Need) (d : Device) : (setNeed n d).rlu = d.rlu := rfl
@[simp] theorem setNeed_pins (n : Need) (d : Device) : (setNeed n d).pins = d.pins := rfl
@[simp] theorem setNeed_lines (n : Need) (d : Device) : (setNeed n d).lines = d.lines := rfl

/-! ## setRecords -/

@[simp] theorem setRecords_ctp (rs : List Release) (d : Device) : (setRecords rs d).ctp = d.ctp := rfl
@[simp] theorem setRecords_lmg (rs : List Release) (d : Device) : (setRecords rs d).lmg = d.lmg := rfl
@[simp] theorem setRecords_tpt (rs : List Release) (d : Device) : (setRecords rs d).tpt = d.tpt := rfl
@[simp] theorem setRecords_hpt (rs : List Release) (d : Device) : (setRecords rs d).hpt = d.hpt := rfl
@[simp] theorem setRecords_tpm (rs : List Release) (d : Device) : (setRecords rs d).tpm = d.tpm := rfl
@[simp] theorem setRecords_fli (rs : List Release) (d : Device) : (setRecords rs d).fli = d.fli := rfl
@[simp] theorem setRecords_asu (rs : List Release) (d : Device) : (setRecords rs d).asu = d.asu := rfl
@[simp] theorem setRecords_hdu (rs : List Release) (d : Device) : (setRecords rs d).hdu = d.hdu := rfl
@[simp] theorem setRecords_pins (rs : List Release) (d : Device) : (setRecords rs d).pins = d.pins := rfl
@[simp] theorem setRecords_lines (rs : List Release) (d : Device) : (setRecords rs d).lines = d.lines := rfl

/-! ## setBank -/

@[simp] theorem setBank_lmg (n : BankName) (b : FaultBank) (d : Device) : (setBank n b d).lmg = d.lmg := by cases n <;> rfl
@[simp] theorem setBank_tpt (n : BankName) (b : FaultBank) (d : Device) : (setBank n b d).tpt = d.tpt := by cases n <;> rfl
@[simp] theorem setBank_hpt (n : BankName) (b : FaultBank) (d : Device) : (setBank n b d).hpt = d.hpt := by cases n <;> rfl
@[simp] theorem setBank_tpm (n : BankName) (b : FaultBank) (d : Device) : (setBank n b d).tpm = d.tpm := by cases n <;> rfl
@[simp] theorem setBank_fli (n : BankName) (b : FaultBank) (d : Device) : (setBank n b d).fli = d.fli := by cases n <;> rfl
@[simp] theorem setBank_asu (n : BankName) (b : FaultBank) (d : Device) : (setBank n b d).asu = d.asu := by cases n <;> rfl
@[simp] theorem setBank_hdu (n : BankName) (b : FaultBank) (d : Device) : (setBank n b d).hdu = d.hdu := by cases n <;> rfl
@[simp] theorem setBank_rlu (n : BankName) (b : FaultBank) (d : Device) : (setBank n b d).rlu = d.rlu := by cases n <;> rfl
@[simp] theorem setBank_pins (n : BankName) (b : FaultBank) (d : Device) : (setBank n b d).pins = d.pins := by cases n <;> rfl
@[simp] theorem setBank_lines (n : BankName) (b : FaultBank) (d : Device) : (setBank n b d).lines = d.lines := by cases n <;> rfl

/-! ## raise -/

@[simp] theorem raise_lmg (n : BankName) (v : Severity) (c : FaultCode) (r : Nat) (d : Device) : (raise n v c r d).lmg = d.lmg := by cases n <;> rfl
@[simp] theorem raise_tpt (n : BankName) (v : Severity) (c : FaultCode) (r : Nat) (d : Device) : (raise n v c r d).tpt = d.tpt := by cases n <;> rfl
@[simp] theorem raise_hpt (n : BankName) (v : Severity) (c : FaultCode) (r : Nat) (d : Device) : (raise n v c r d).hpt = d.hpt := by cases n <;> rfl
@[simp] theorem raise_tpm (n : BankName) (v : Severity) (c : FaultCode) (r : Nat) (d : Device) : (raise n v c r d).tpm = d.tpm := by cases n <;> rfl
@[simp] theorem raise_fli (n : BankName) (v : Severity) (c : FaultCode) (r : Nat) (d : Device) : (raise n v c r d).fli = d.fli := by cases n <;> rfl
@[simp] theorem raise_asu (n : BankName) (v : Severity) (c : FaultCode) (r : Nat) (d : Device) : (raise n v c r d).asu = d.asu := by cases n <;> rfl
@[simp] theorem raise_hdu (n : BankName) (v : Severity) (c : FaultCode) (r : Nat) (d : Device) : (raise n v c r d).hdu = d.hdu := by cases n <;> rfl
@[simp] theorem raise_rlu (n : BankName) (v : Severity) (c : FaultCode) (r : Nat) (d : Device) : (raise n v c r d).rlu = d.rlu := by cases n <;> rfl
@[simp] theorem raise_pins (n : BankName) (v : Severity) (c : FaultCode) (r : Nat) (d : Device) : (raise n v c r d).pins = d.pins := by cases n <;> rfl
@[simp] theorem raise_lines (n : BankName) (v : Severity) (c : FaultCode) (r : Nat) (d : Device) : (raise n v c r d).lines = d.lines := by cases n <;> rfl

/-! ## enqueue -/

@[simp] theorem enqueue_ctp (b : Bulletin) (d : Device) : (enqueue b d).ctp = d.ctp := rfl
@[simp] theorem enqueue_lmg (b : Bulletin) (d : Device) : (enqueue b d).lmg = d.lmg := rfl
@[simp] theorem enqueue_tpt (b : Bulletin) (d : Device) : (enqueue b d).tpt = d.tpt := rfl
@[simp] theorem enqueue_hpt (b : Bulletin) (d : Device) : (enqueue b d).hpt = d.hpt := rfl
@[simp] theorem enqueue_tpm (b : Bulletin) (d : Device) : (enqueue b d).tpm = d.tpm := rfl
@[simp] theorem enqueue_asu (b : Bulletin) (d : Device) : (enqueue b d).asu = d.asu := rfl
@[simp] theorem enqueue_hdu (b : Bulletin) (d : Device) : (enqueue b d).hdu = d.hdu := rfl
@[simp] theorem enqueue_rlu (b : Bulletin) (d : Device) : (enqueue b d).rlu = d.rlu := rfl
@[simp] theorem enqueue_pins (b : Bulletin) (d : Device) : (enqueue b d).pins = d.pins := rfl
@[simp] theorem enqueue_lines (b : Bulletin) (d : Device) : (enqueue b d).lines = d.lines := rfl

/-! ## pruneParked -/

@[simp] theorem pruneParked_ctp (d : Device) : (pruneParked d).ctp = d.ctp := rfl
@[simp] theorem pruneParked_lmg (d : Device) : (pruneParked d).lmg = d.lmg := rfl
@[simp] theorem pruneParked_tpt (d : Device) : (pruneParked d).tpt = d.tpt := rfl
@[simp] theorem pruneParked_hpt (d : Device) : (pruneParked d).hpt = d.hpt := rfl
@[simp] theorem pruneParked_tpm (d : Device) : (pruneParked d).tpm = d.tpm := rfl
@[simp] theorem pruneParked_fli (d : Device) : (pruneParked d).fli = d.fli := rfl
@[simp] theorem pruneParked_hdu (d : Device) : (pruneParked d).hdu = d.hdu := rfl
@[simp] theorem pruneParked_rlu (d : Device) : (pruneParked d).rlu = d.rlu := rfl
@[simp] theorem pruneParked_pins (d : Device) : (pruneParked d).pins = d.pins := rfl
@[simp] theorem pruneParked_lines (d : Device) : (pruneParked d).lines = d.lines := rfl

/-! ## setEntry -/

@[simp] theorem setEntry_ctp (h : Nat) (e : HandlerEntry) (d : Device) : (setEntry h e d).ctp = d.ctp := rfl
@[simp] theorem setEntry_lmg (h : Nat) (e : HandlerEntry) (d : Device) : (setEntry h e d).lmg = d.lmg := rfl
@[simp] theorem setEntry_tpt (h : Nat) (e : HandlerEntry) (d : Device) : (setEntry h e d).tpt = d.tpt := rfl
@[simp] theorem setEntry_hpt (h : Nat) (e : HandlerEntry) (d : Device) : (setEntry h e d).hpt = d.hpt := rfl
@[simp] theorem setEntry_tpm (h : Nat) (e : HandlerEntry) (d : Device) : (setEntry h e d).tpm = d.tpm := rfl
@[simp] theorem setEntry_fli (h : Nat) (e : HandlerEntry) (d : Device) : (setEntry h e d).fli = d.fli := rfl
@[simp] theorem setEntry_hdu (h : Nat) (e : HandlerEntry) (d : Device) : (setEntry h e d).hdu = d.hdu := rfl
@[simp] theorem setEntry_rlu (h : Nat) (e : HandlerEntry) (d : Device) : (setEntry h e d).rlu = d.rlu := rfl
@[simp] theorem setEntry_pins (h : Nat) (e : HandlerEntry) (d : Device) : (setEntry h e d).pins = d.pins := rfl
@[simp] theorem setEntry_lines (h : Nat) (e : HandlerEntry) (d : Device) : (setEntry h e d).lines = d.lines := rfl

/-! ## mapEntries -/

@[simp] theorem mapEntries_ctp (f : HandlerEntry → HandlerEntry) (d : Device) : (mapEntries f d).ctp = d.ctp := rfl
@[simp] theorem mapEntries_lmg (f : HandlerEntry → HandlerEntry) (d : Device) : (mapEntries f d).lmg = d.lmg := rfl
@[simp] theorem mapEntries_tpt (f : HandlerEntry → HandlerEntry) (d : Device) : (mapEntries f d).tpt = d.tpt := rfl
@[simp] theorem mapEntries_hpt (f : HandlerEntry → HandlerEntry) (d : Device) : (mapEntries f d).hpt = d.hpt := rfl
@[simp] theorem mapEntries_tpm (f : HandlerEntry → HandlerEntry) (d : Device) : (mapEntries f d).tpm = d.tpm := rfl
@[simp] theorem mapEntries_fli (f : HandlerEntry → HandlerEntry) (d : Device) : (mapEntries f d).fli = d.fli := rfl
@[simp] theorem mapEntries_hdu (f : HandlerEntry → HandlerEntry) (d : Device) : (mapEntries f d).hdu = d.hdu := rfl
@[simp] theorem mapEntries_rlu (f : HandlerEntry → HandlerEntry) (d : Device) : (mapEntries f d).rlu = d.rlu := rfl
@[simp] theorem mapEntries_pins (f : HandlerEntry → HandlerEntry) (d : Device) : (mapEntries f d).pins = d.pins := rfl
@[simp] theorem mapEntries_lines (f : HandlerEntry → HandlerEntry) (d : Device) : (mapEntries f d).lines = d.lines := rfl

/-! ## frameEnds -/

@[simp] theorem frameEnds_ctp (d : Device) : (frameEnds d).ctp = d.ctp := rfl
@[simp] theorem frameEnds_lmg (d : Device) : (frameEnds d).lmg = d.lmg := rfl
@[simp] theorem frameEnds_tpt (d : Device) : (frameEnds d).tpt = d.tpt := rfl
@[simp] theorem frameEnds_hpt (d : Device) : (frameEnds d).hpt = d.hpt := rfl
@[simp] theorem frameEnds_tpm (d : Device) : (frameEnds d).tpm = d.tpm := rfl
@[simp] theorem frameEnds_asu (d : Device) : (frameEnds d).asu = d.asu := rfl
@[simp] theorem frameEnds_hdu (d : Device) : (frameEnds d).hdu = d.hdu := rfl
@[simp] theorem frameEnds_rlu (d : Device) : (frameEnds d).rlu = d.rlu := rfl
@[simp] theorem frameEnds_pins (d : Device) : (frameEnds d).pins = d.pins := rfl
@[simp] theorem frameEnds_lines (d : Device) : (frameEnds d).lines = d.lines := rfl

/-! ## frameDropped -/

@[simp] theorem frameDropped_ctp (d : Device) : (frameDropped d).ctp = d.ctp := rfl
@[simp] theorem frameDropped_lmg (d : Device) : (frameDropped d).lmg = d.lmg := rfl
@[simp] theorem frameDropped_tpt (d : Device) : (frameDropped d).tpt = d.tpt := rfl
@[simp] theorem frameDropped_hpt (d : Device) : (frameDropped d).hpt = d.hpt := rfl
@[simp] theorem frameDropped_tpm (d : Device) : (frameDropped d).tpm = d.tpm := rfl
@[simp] theorem frameDropped_asu (d : Device) : (frameDropped d).asu = d.asu := rfl
@[simp] theorem frameDropped_hdu (d : Device) : (frameDropped d).hdu = d.hdu := rfl
@[simp] theorem frameDropped_rlu (d : Device) : (frameDropped d).rlu = d.rlu := rfl
@[simp] theorem frameDropped_pins (d : Device) : (frameDropped d).pins = d.pins := rfl
@[simp] theorem frameDropped_lines (d : Device) : (frameDropped d).lines = d.lines := rfl

/-! ## countFrameError -/

@[simp] theorem countFrameError_lmg (d : Device) : (countFrameError d).lmg = d.lmg := rfl
@[simp] theorem countFrameError_tpt (d : Device) : (countFrameError d).tpt = d.tpt := rfl
@[simp] theorem countFrameError_hpt (d : Device) : (countFrameError d).hpt = d.hpt := rfl
@[simp] theorem countFrameError_tpm (d : Device) : (countFrameError d).tpm = d.tpm := rfl
@[simp] theorem countFrameError_fli (d : Device) : (countFrameError d).fli = d.fli := rfl
@[simp] theorem countFrameError_asu (d : Device) : (countFrameError d).asu = d.asu := rfl
@[simp] theorem countFrameError_hdu (d : Device) : (countFrameError d).hdu = d.hdu := rfl
@[simp] theorem countFrameError_rlu (d : Device) : (countFrameError d).rlu = d.rlu := rfl
@[simp] theorem countFrameError_pins (d : Device) : (countFrameError d).pins = d.pins := rfl
@[simp] theorem countFrameError_lines (d : Device) : (countFrameError d).lines = d.lines := rfl

@[simp] theorem setTpt_same (f : Tpt → Tpt) (d : Device) : (setTpt f d).tpt = f d.tpt := rfl
@[simp] theorem setHpt_same (f : Hpt → Hpt) (d : Device) : (setHpt f d).hpt = f d.hpt := rfl
@[simp] theorem setTpm_same (f : Tpm → Tpm) (d : Device) : (setTpm f d).tpm = f d.tpm := rfl
@[simp] theorem setFli_same (f : Fli → Fli) (d : Device) : (setFli f d).fli = f d.fli := rfl
@[simp] theorem setCtp_same (f : Ctp → Ctp) (d : Device) : (setCtp f d).ctp = f d.ctp := rfl
@[simp] theorem setHdu_same (f : Hdu → Hdu) (d : Device) : (setHdu f d).hdu = f d.hdu := rfl
@[simp] theorem setNeed_need (n : Need) (d : Device) : (setNeed n d).asu.need = n := rfl
@[simp] theorem setNeed_table (n : Need) (d : Device) : (setNeed n d).asu.table = d.asu.table := rfl
@[simp] theorem setRecords_records (rs : List Release) (d : Device) : (setRecords rs d).rlu.records = rs := rfl
@[simp] theorem setRecords_counter (rs : List Release) (d : Device) : (setRecords rs d).rlu.counter = d.rlu.counter := rfl
@[simp] theorem respond_out (r : Response) (d : Device) :
    (respond r d).lines.terminalOut = d.lines.terminalOut ++ [r] := rfl
@[simp] theorem moved_pending (s : State) (d : Device) : (moved s d).pending = s.pending := rfl
@[simp] theorem moved_dev (s : State) (d : Device) : (moved s d).dev = refreshPins d := rfl
@[simp] theorem commit_eq (s : State) (d : Device) : commit s d = .next (moved s d) := rfl

/-! ## Fault banks -/

@[simp] theorem bank_setBank (n m : BankName) (b : FaultBank) (d : Device) :
    bank (setBank n b d) m = if n = m then b else bank d m := by cases n <;> cases m <;> rfl

@[simp] theorem bank_raise (n m : BankName) (v : Severity) (c : FaultCode) (r : Nat) (d : Device) :
    bank (raise n v c r d) m = if n = m then takeFault (bank d n) ⟨v, c, r, now d⟩ else bank d m := by
  cases n <;> cases m <;> rfl

@[simp] theorem raise_ctp_device (n : BankName) (v : Severity) (c : FaultCode) (r : Nat) (d : Device) :
    (raise n v c r d).ctp.device = d.ctp.device := by cases n <;> rfl
@[simp] theorem setBank_ctp_device (n : BankName) (b : FaultBank) (d : Device) :
    (setBank n b d).ctp.device = d.ctp.device := by cases n <;> rfl
@[simp] theorem raise_ctp_config (n : BankName) (v : Severity) (c : FaultCode) (r : Nat) (d : Device) :
    (raise n v c r d).ctp.config = d.ctp.config := by cases n <;> rfl
@[simp] theorem setBank_ctp_config (n : BankName) (b : FaultBank) (d : Device) :
    (setBank n b d).ctp.config = d.ctp.config := by cases n <;> rfl
@[simp] theorem raise_ctp_joinClock (n : BankName) (v : Severity) (c : FaultCode) (r : Nat) (d : Device) :
    (raise n v c r d).ctp.joinClock = d.ctp.joinClock := by cases n <;> rfl
@[simp] theorem setBank_ctp_joinClock (n : BankName) (b : FaultBank) (d : Device) :
    (setBank n b d).ctp.joinClock = d.ctp.joinClock := by cases n <;> rfl
@[simp] theorem raise_ctp_frameErrors (n : BankName) (v : Severity) (c : FaultCode) (r : Nat) (d : Device) :
    (raise n v c r d).ctp.frameErrors = d.ctp.frameErrors := by cases n <;> rfl
@[simp] theorem setBank_ctp_frameErrors (n : BankName) (b : FaultBank) (d : Device) :
    (setBank n b d).ctp.frameErrors = d.ctp.frameErrors := by cases n <;> rfl
@[simp] theorem raise_ctp_waiting (n : BankName) (v : Severity) (c : FaultCode) (r : Nat) (d : Device) :
    (raise n v c r d).ctp.waiting = d.ctp.waiting := by cases n <;> rfl
@[simp] theorem setBank_ctp_waiting (n : BankName) (b : FaultBank) (d : Device) :
    (setBank n b d).ctp.waiting = d.ctp.waiting := by cases n <;> rfl
@[simp] theorem raise_ctp_hold (n : BankName) (v : Severity) (c : FaultCode) (r : Nat) (d : Device) :
    (raise n v c r d).ctp.hold = d.ctp.hold := by cases n <;> rfl
@[simp] theorem setBank_ctp_hold (n : BankName) (b : FaultBank) (d : Device) :
    (setBank n b d).ctp.hold = d.ctp.hold := by cases n <;> rfl
@[simp] theorem raise_ctp_restartPending (n : BankName) (v : Severity) (c : FaultCode) (r : Nat) (d : Device) :
    (raise n v c r d).ctp.restartPending = d.ctp.restartPending := by cases n <;> rfl
@[simp] theorem setBank_ctp_restartPending (n : BankName) (b : FaultBank) (d : Device) :
    (setBank n b d).ctp.restartPending = d.ctp.restartPending := by cases n <;> rfl

/-! ## The pins' refresh -/

@[simp] theorem refreshPins_ctp (d : Device) : (refreshPins d).ctp = d.ctp := rfl
@[simp] theorem refreshPins_lmg (d : Device) : (refreshPins d).lmg = d.lmg := rfl
@[simp] theorem refreshPins_tpt (d : Device) : (refreshPins d).tpt = d.tpt := rfl
@[simp] theorem refreshPins_tpm (d : Device) : (refreshPins d).tpm = d.tpm := rfl
@[simp] theorem refreshPins_fli (d : Device) : (refreshPins d).fli = d.fli := rfl
@[simp] theorem refreshPins_asu (d : Device) : (refreshPins d).asu = d.asu := rfl
@[simp] theorem refreshPins_hdu (d : Device) : (refreshPins d).hdu = d.hdu := rfl
@[simp] theorem refreshPins_rlu (d : Device) : (refreshPins d).rlu = d.rlu := rfl
@[simp] theorem refreshPins_lines (d : Device) : (refreshPins d).lines = d.lines := rfl
@[simp] theorem refreshPins_pins_straps (d : Device) : (refreshPins d).pins.straps = d.pins.straps := rfl
@[simp] theorem refreshPins_pins_ready (d : Device) : (refreshPins d).pins.ready = d.pins.ready := rfl
@[simp] theorem refreshPins_pins_resetPin (d : Device) : (refreshPins d).pins.resetPin = d.pins.resetPin := rfl
@[simp] theorem refreshPins_hpt_presence (d : Device) : (refreshPins d).hpt.presence = d.hpt.presence := rfl
@[simp] theorem refreshPins_hpt_handler (d : Device) : (refreshPins d).hpt.handler = d.hpt.handler := rfl
@[simp] theorem refreshPins_hpt_kit (d : Device) : (refreshPins d).hpt.kit = d.hpt.kit := rfl
@[simp] theorem refreshPins_hpt_absence (d : Device) : (refreshPins d).hpt.absence = d.hpt.absence := rfl
@[simp] theorem refreshPins_hpt_leaving (d : Device) : (refreshPins d).hpt.leaving = d.hpt.leaving := rfl
@[simp] theorem refreshPins_hpt_query (d : Device) : (refreshPins d).hpt.query = d.hpt.query := rfl
@[simp] theorem refreshPins_hpt_soaked (d : Device) : (refreshPins d).hpt.soaked = d.hpt.soaked := rfl
@[simp] theorem refreshPins_hpt_soakHeard (d : Device) : (refreshPins d).hpt.soakHeard = d.hpt.soakHeard := rfl
@[simp] theorem refreshPins_hpt_soak (d : Device) : (refreshPins d).hpt.soak = d.hpt.soak := rfl
@[simp] theorem refreshPins_hpt_soakBlocked (d : Device) : (refreshPins d).hpt.soakBlocked = d.hpt.soakBlocked := rfl
@[simp] theorem refreshPins_hpt_soakTarget (d : Device) : (refreshPins d).hpt.soakTarget = d.hpt.soakTarget := rfl
@[simp] theorem refreshPins_hpt_kitChange (d : Device) : (refreshPins d).hpt.kitChange = d.hpt.kitChange := rfl
@[simp] theorem refreshPins_hpt_pass (d : Device) : (refreshPins d).hpt.pass = d.hpt.pass := rfl
@[simp] theorem refreshPins_hpt_passHandler (d : Device) : (refreshPins d).hpt.passHandler = d.hpt.passHandler := rfl
@[simp] theorem refreshPins_hpt_intake (d : Device) : (refreshPins d).hpt.intake = d.hpt.intake := rfl
@[simp] theorem refreshPins_hpt_capAcc (d : Device) : (refreshPins d).hpt.capAcc = d.hpt.capAcc := rfl

/-! ## The lot table -/

@[simp] theorem lotAt_putLot_same (i : Fin 8) (l : Option Lot) (d : Device) : lotAt (putLot i l d) i = l := by
  simp [lotAt, putLot]

theorem lotAt_putLot (i j : Fin 8) (l : Option Lot) (d : Device) :
    lotAt (putLot i l d) j = if i = j then l else lotAt d j := by
  simp [lotAt, putLot, Vector.getElem_set, Fin.ext_iff]

theorem lotAt_modifyLot (i j : Fin 8) (f : Lot → Lot) (d : Device) :
    lotAt (modifyLot i f d) j = if i = j then (lotAt d i).map f else lotAt d j := by
  simp [modifyLot, lotAt_putLot]

@[simp] theorem lotAt_modifyLot_same (i : Fin 8) (f : Lot → Lot) (d : Device) :
    lotAt (modifyLot i f d) i = (lotAt d i).map f := by simp [modifyLot]

theorem lotAt_of_lmg {d e : Device} (h : d.lmg = e.lmg) (i : Fin 8) : lotAt d i = lotAt e i := by
  simp [lotAt, h]

end Sys2Proof.Machine
end

