-- ==== Sys2Proof/Laws/Keeps.lean ====
section
/-! SUPPORT. What no shared operation undoes: `Keeps d e` says that `e` has the device state, configuration,
reset hold and station number of `d`, that no UNCORRECTED record has left a bank, and that every invariant of
Safety.lean but the pins' that holds of `d` holds of `e`. `Weakly d e` says the same but for HELD lots: an
operation in the middle of a hold request or a disposition. `P` is what an operation needs for the cell to stay
with one lot (OneCell), `True` but for the moves of an open insertion. Here the parts and the transmit queue. -/

namespace Sys2Proof.Machine

/-! ## The parts -/

variable {P : Prop}

structure KeepsCtp (d e : Device) : Prop where
  device : e.ctp.device = d.ctp.device
  config : e.ctp.config = d.ctp.config
  hold : e.ctp.hold = d.ctp.hold
  station : e.fli.station = d.fli.station
  banks : ∀ n, uncorrectedIn d n → uncorrectedIn e n

structure KeepsLots (P : Prop) (d e : Device) : Prop where
  accounts : AccountsBalance d → AccountsBalance e
  holdSets : HoldSetsSound d → HoldSetsSound e
  cell : P → OneCell d → OneCell e

structure KeepsFli (d e : Device) : Prop where
  queue : QueueSound d.fli → QueueSound e.fli
  score : ScoreSound d → ScoreSound e

structure Weakly (P : Prop) (d e : Device) : Prop where
  ctp : KeepsCtp d e
  lots : KeepsLots P d e
  fli : KeepsFli d e
  park : ParkedSound d → ParkedSound e

structure Keeps (P : Prop) (d e : Device) : Prop where
  weak : Weakly P d e
  held : HeldIffHolds d → HeldIffHolds e

theorem KeepsCtp.refl (d : Device) : KeepsCtp d d := ⟨rfl, rfl, rfl, rfl, fun _ h => h⟩
theorem KeepsLots.refl (d : Device) : KeepsLots P d d := ⟨id, id, fun _ => id⟩
theorem KeepsFli.refl (d : Device) : KeepsFli d d := ⟨id, id⟩
theorem Weakly.refl (d : Device) : Weakly P d d := ⟨.refl d, .refl d, .refl d, id⟩
theorem Keeps.refl (d : Device) : Keeps P d d := ⟨.refl d, id⟩

theorem KeepsCtp.trans {d e f : Device} (h : KeepsCtp d e) (k : KeepsCtp e f) : KeepsCtp d f :=
  ⟨k.device.trans h.device, k.config.trans h.config, k.hold.trans h.hold, k.station.trans h.station,
    fun n u => k.banks n (h.banks n u)⟩

theorem KeepsLots.trans {d e f : Device} (h : KeepsLots P d e) (k : KeepsLots P e f) : KeepsLots P d f :=
  ⟨k.accounts ∘ h.accounts, k.holdSets ∘ h.holdSets, fun p a => k.cell p (h.cell p a)⟩

theorem KeepsFli.trans {d e f : Device} (h : KeepsFli d e) (k : KeepsFli e f) : KeepsFli d f :=
  ⟨k.queue ∘ h.queue, k.score ∘ h.score⟩

theorem Weakly.trans {d e f : Device} (h : Weakly P d e) (k : Weakly P e f) : Weakly P d f :=
  ⟨h.ctp.trans k.ctp, h.lots.trans k.lots, h.fli.trans k.fli, k.park ∘ h.park⟩

theorem Keeps.trans {d e f : Device} (h : Keeps P d e) (k : Keeps P e f) : Keeps P d f :=
  ⟨h.weak.trans k.weak, k.held ∘ h.held⟩

theorem keepsCtp_of_eq {d e : Device} (hc : e.ctp = d.ctp) (hs : e.fli.station = d.fli.station) :
    KeepsCtp d e :=
  ⟨by rw [hc], by rw [hc], by rw [hc], hs, by intro n; cases n <;> simp [uncorrectedIn, bank, hc]⟩

theorem keepsLots_of_eq {d e : Device} (hl : e.lmg = d.lmg) (hr : e.rlu.records = d.rlu.records) :
    KeepsLots P d e := by
  have key : ∀ i, lotAt e i = lotAt d i := fun i => lotAt_of_lmg hl i
  refine ⟨fun h => ⟨fun i l k => h.1 i l (key i ▸ k), by rw [hr]; exact h.2⟩,
    fun h i l k => h i l (key i ▸ k), fun _ h => ⟨fun i j l m a b => h.1 i j l m (key i ▸ a) (key j ▸ b),
      fun i l k => h.2 i l (key i ▸ k)⟩⟩

theorem held_of_eq {d e : Device} (hl : e.lmg = d.lmg) (h : HeldIffHolds d) : HeldIffHolds e :=
  fun i l k => h i l (lotAt_of_lmg hl i ▸ k)

theorem keepsFli_of_eq {d e : Device} (hf : e.fli = d.fli) (hc : live e = live d) : KeepsFli d e :=
  ⟨by rw [hf]; exact id, by unfold ScoreSound; rw [hf, hc]; exact id⟩

theorem live_of_ctp {d e : Device} (hd : e.ctp.device = d.ctp.device) (hh : e.ctp.hold = d.ctp.hold) :
    live e = live d := by unfold live; rw [hd, hh]

theorem parked_of_eq {d e : Device} (hp : e.asu.parked = d.asu.parked) (ht : e.asu.table = d.asu.table)
    (hs : e.fli.station = d.fli.station)
    (hh : ∀ h, e.hpt.handler = some h → d.hpt.handler = some h ∨ isHandler h = true)
    (hn : ∀ h, e.asu.need.target = some h → d.asu.need.target = some h ∨ isHandler h = true)
    (k : ParkedSound d) : ParkedSound e := by
  obtain ⟨a, b, c, x, y⟩ := k
  refine ⟨by rw [hp]; exact a, by rw [hp]; exact b, fun h m => ?_,
    fun h m => (hh h m).elim (x h) id, fun h m => (hn h m).elim (y h) id⟩
  have := c h (hp ▸ m)
  simpa only [entryAt, ownStation, ht, hs] using this

/-- An operation that leaves CTP, FLI, the lots, the records and the assignment alone. -/
theorem keeps_of_eq {d e : Device} (hc : e.ctp = d.ctp) (hf : e.fli = d.fli) (hl : e.lmg = d.lmg)
    (hr : e.rlu.records = d.rlu.records) (hp : ParkedSound d → ParkedSound e) : Keeps P d e :=
  ⟨⟨keepsCtp_of_eq hc (by rw [hf]), keepsLots_of_eq hl hr,
    keepsFli_of_eq hf (live_of_ctp (by rw [hc]) (by rw [hc])), hp⟩, held_of_eq hl⟩

theorem park_same {d e : Device} (ha : e.asu = d.asu) (hh : e.hpt.handler = d.hpt.handler)
    (hs : e.fli.station = d.fli.station) : ParkedSound d → ParkedSound e :=
  parked_of_eq (by rw [ha]) (by rw [ha]) hs (fun h m => .inl (by rw [← hh]; exact m))
    (fun h m => .inl (by rw [← ha]; exact m))

/-! ## Updates of one part -/

theorem keeps_setTpt (f : Tpt → Tpt) (d : Device) : Keeps P d (setTpt f d) :=
  keeps_of_eq rfl rfl rfl rfl (park_same rfl rfl rfl)

/-- HPT changed, its handler kept, emptied or set to a handler of the table. -/
theorem keeps_setHpt (f : Hpt → Hpt) (d : Device)
    (h : ∀ x : Nat, (f d.hpt).handler = some x → d.hpt.handler = some x ∨ isHandler x = true) :
    Keeps P d (setHpt f d) :=
  keeps_of_eq rfl rfl rfl rfl (parked_of_eq rfl rfl rfl h fun _ m => .inl m)

theorem keeps_setHpt' (f : Hpt → Hpt) (d : Device) (h : (f d.hpt).handler = d.hpt.handler) :
    Keeps P d (setHpt f d) := keeps_setHpt f d fun _ m => .inl (h ▸ m)

theorem keeps_setTpm (f : Tpm → Tpm) (d : Device) : Keeps P d (setTpm f d) :=
  keeps_of_eq rfl rfl rfl rfl (park_same rfl rfl rfl)
theorem keeps_setHdu (f : Hdu → Hdu) (d : Device) : Keeps P d (setHdu f d) :=
  keeps_of_eq rfl rfl rfl rfl (park_same rfl rfl rfl)

/-- The need changed, its target kept, cleared or set to a handler of the table. -/
theorem keeps_setNeed (n : Need) (d : Device)
    (h : ∀ x, n.target = some x → d.asu.need.target = some x ∨ isHandler x = true) : Keeps P d (setNeed n d) :=
  keeps_of_eq rfl rfl rfl rfl (parked_of_eq rfl rfl rfl (fun _ m => .inl m) h)

theorem keeps_setNeed' (n : Need) (d : Device) (h : n.target = d.asu.need.target) : Keeps P d (setNeed n d) :=
  keeps_setNeed n d fun _ m => .inl (h ▸ m)

theorem keeps_clearArm (d : Device) : Keeps P d (clearArm d) := keeps_of_eq rfl rfl rfl rfl (park_same rfl rfl rfl)
theorem keeps_setSite (k : Fin 8) (v : SiteState) (d : Device) : Keeps P d (setSite k v d) :=
  keeps_of_eq rfl rfl rfl rfl (park_same rfl rfl rfl)
theorem keeps_sendTester (m : TesterOut) (d : Device) : Keeps P d (sendTester m d) :=
  keeps_of_eq rfl rfl rfl rfl (park_same rfl rfl rfl)
theorem keeps_sendHandler (m : HandlerOut) (d : Device) : Keeps P d (sendHandler m d) :=
  keeps_of_eq rfl rfl rfl rfl (park_same rfl rfl rfl)
theorem keeps_sendFloor (m : FloorOut) (d : Device) : Keeps P d (sendFloor m d) :=
  keeps_of_eq rfl rfl rfl rfl (park_same rfl rfl rfl)
theorem keeps_respond (r : Response) (d : Device) : Keeps P d (respond r d) :=
  keeps_of_eq rfl rfl rfl rfl (park_same rfl rfl rfl)
theorem keeps_feedEval (d : Device) : Keeps P d (feedEval d) := keeps_of_eq rfl rfl rfl rfl (park_same rfl rfl rfl)
theorem keeps_refreshPins (d : Device) : Keeps P d (refreshPins d) :=
  keeps_of_eq rfl rfl rfl rfl (park_same rfl rfl rfl)
theorem keeps_idleEval (d : Device) : Keeps P d (idleEval d) :=
  keeps_of_eq rfl rfl rfl rfl (parked_of_eq rfl rfl rfl (fun _ m => .inl m) fun _ m => .inl m)
theorem keeps_queryEval (d : Device) : Keeps P d (queryEval d) := keeps_of_eq rfl rfl rfl rfl (park_same rfl rfl rfl)

theorem keeps_sendTesterIfUp (m : TesterOut) (d : Device) : Keeps P d (sendTesterIfUp m d) := by
  unfold sendTesterIfUp; split
  · exact keeps_sendTester m d
  · exact .refl d

/-! ## The handler table and the own parked list (R143) -/

theorem mem_table_of_mem {d : Device} {p : Nat → Bool} {h : Nat} (m : h ∈ d.asu.parked.filter p) :
    h ∈ d.asu.parked := (List.mem_filter.1 m).1

/-- After pruning, the own parked list is sound whatever became of the table. -/
theorem parked_prune {d : Device} (a : d.asu.parked.length ≤ 4) (b : d.asu.parked.Nodup)
    (x : ∀ h, d.hpt.handler = some h → isHandler h = true)
    (y : ∀ h, d.asu.need.target = some h → isHandler h = true) : ParkedSound (pruneParked d) := by
  refine ⟨(List.length_filter_le ..).trans a, b.filter _, fun h m => ?_, x, y⟩
  have := (List.mem_filter.1 m).2
  simp only [Bool.and_eq_true, beq_iff_eq] at this
  exact this

theorem keeps_setEntry (h : Nat) (e : HandlerEntry) (d : Device) : Keeps P d (setEntry h e d) :=
  keeps_of_eq rfl rfl rfl rfl fun k => parked_prune k.1 k.2.1 k.2.2.2.1 k.2.2.2.2

theorem keeps_mapEntries (f : HandlerEntry → HandlerEntry) (d : Device) : Keeps P d (mapEntries f d) :=
  keeps_of_eq rfl rfl rfl rfl fun k => parked_prune k.1 k.2.1 k.2.2.2.1 k.2.2.2.2

theorem entryAt_setEntry {h : Nat} (e : HandlerEntry) (d : Device) (k : isHandler h = true) :
    entryAt (setEntry h e d) h = e := by
  simp only [isHandler, inRange, Bool.and_eq_true, decide_eq_true_eq] at k
  have hl : h - 1 < 48 := by omega
  show (Vector.setIfInBounds _ _ _).toList.getD _ _ = _
  simp [List.getD, hl]

/-- A handler whose entry is FREE, parked by the own station, joins the list. -/
theorem parked_join {d : Device} {h : Nat} (k : ParkedSound d) (hs : (entryAt d h).state = .free)
    (hp : (entryAt d h).parkedBy = some (ownStation d)) : ParkedSound (joinParked h d) := by
  obtain ⟨a, b, c, x, y⟩ := k
  have nd : (d.asu.parked.filter (· != h) ++ [h]).Nodup := by
    refine List.nodup_append.2 ⟨b.filter _, by simp, ?_⟩
    intro u hu v hv
    have := (List.mem_filter.1 hu).2
    simp only [List.mem_singleton] at hv; subst hv
    simpa using this
  refine ⟨?_, nd.sublist (List.drop_sublist ..), fun u hu => ?_, x, y⟩
  · simp only [joinParked, List.length_drop]; omega
  · rcases List.mem_append.1 ((List.drop_sublist ..).subset hu) with hu | hu
    · exact c u (List.mem_filter.1 hu).1
    · simp only [List.mem_singleton] at hu; subst hu; exact ⟨hs, hp⟩

theorem keeps_joinParked {h : Nat} {d : Device} (hs : ParkedSound d → (entryAt d h).state = .free)
    (hp : (entryAt d h).parkedBy = some (ownStation d)) : Keeps P d (joinParked h d) :=
  keeps_of_eq rfl rfl rfl rfl fun k => parked_join k (hs k) hp

/-! ## Fault banks: a record only grows in severity (R206) -/

theorem takeFault_uncorrected (b : FaultBank) (f : FaultRecord) (h : bankUncorrected b = true) :
    bankUncorrected (takeFault b f) = true := by
  obtain ⟨r, o⟩ := b
  cases r with
  | none => simp [bankUncorrected] at h
  | some r =>
    simp only [bankUncorrected, Option.any_some, beq_iff_eq] at h
    have : ¬ r.severity.rank < f.severity.rank := by
      rw [h]; cases f.severity <;> simp [Severity.rank]
    unfold takeFault; simp only [if_neg this]; simp [bankUncorrected, h]

theorem keepsCtp_raise (n : BankName) (v : Severity) (c : FaultCode) (r : Nat) (d : Device) :
    KeepsCtp d (raise n v c r d) := by
  refine ⟨by simp, by simp, by simp, by simp, ?_⟩
  intro m h
  simp only [uncorrectedIn, bank_raise] at h ⊢
  split
  · subst_vars; exact takeFault_uncorrected _ _ h
  · exact h

theorem keeps_raise (n : BankName) (v : Severity) (c : FaultCode) (r : Nat) (d : Device) :
    Keeps P d (raise n v c r d) :=
  ⟨⟨keepsCtp_raise n v c r d, keepsLots_of_eq (by simp) (by simp),
    keepsFli_of_eq (by simp) (live_of_ctp (by simp) (by simp)),
    park_same (by simp) (by simp) (by simp)⟩, held_of_eq (by simp)⟩

/-! ## The lot table -/

/-- A lot record may become another: its accounts stay balanced, its hold set sound, it does not gain the cell and
does not get into the middle of an insertion that is not open. -/
structure LotStepW (P : Prop) (l m : Lot) : Prop where
  balance : LotBalances l → LotBalances m
  holdSet : HoldSetSound l → HoldSetSound m
  cell : P → (MidInsertion l → l.opened = true) → HasCell m → HasCell l
  mid : P → (MidInsertion l → l.opened = true) → MidInsertion m → m.opened = true

/-- And it is HELD as its hold set asks. -/
structure LotStep (P : Prop) (l m : Lot) : Prop where
  weak : LotStepW P l m
  held : (l.state = .held ↔ holdsLot l = true) → (m.state = .held ↔ holdsLot m = true)

theorem weakly_lots {d e : Device} (hc : e.ctp = d.ctp) (hf : e.fli = d.fli) (ha : e.asu = d.asu)
    (hh : e.hpt.handler = d.hpt.handler) (k : KeepsLots P d e) : Weakly P d e :=
  ⟨keepsCtp_of_eq hc (by rw [hf]), k, keepsFli_of_eq hf (live_of_ctp (by rw [hc]) (by rw [hc])),
    park_same ha hh (by rw [hf])⟩

theorem keepsLots_putLot (i : Fin 8) (l m : Lot) (d : Device) (hl : lotAt d i = some l) (h : LotStepW P l m) :
    KeepsLots P d (putLot i (some m) d) := by
  refine ⟨fun a => ⟨fun j x hx => ?_, a.2⟩, fun a j x hx => ?_, fun p a => ⟨fun j k x y hx hy cx cy => ?_,
    fun j x hx mx => ?_⟩⟩
  · rw [lotAt_putLot] at hx; split at hx
    · obtain rfl := Option.some.inj hx; exact h.balance (a.1 i l hl)
    · exact a.1 j x hx
  · rw [lotAt_putLot] at hx; split at hx
    · obtain rfl := Option.some.inj hx; exact h.holdSet (a i l hl)
    · exact a j x hx
  · rw [lotAt_putLot] at hx hy
    split at hx <;> split at hy
    · subst_vars; rfl
    · obtain rfl := Option.some.inj hx; rename_i e _; subst e; exact a.1 _ k l y hl hy (h.cell p (a.2 _ l hl) cx) cy
    · obtain rfl := Option.some.inj hy; rename_i e; subst e; exact a.1 j _ x l hx hl cx (h.cell p (a.2 _ l hl) cy)
    · exact a.1 j k x y hx hy cx cy
  · rw [lotAt_putLot] at hx; split at hx
    · obtain rfl := Option.some.inj hx; exact h.mid p (a.2 i l hl) mx
    · exact a.2 j x hx mx

theorem weakly_putLot (i : Fin 8) (l m : Lot) (d : Device) (hl : lotAt d i = some l) (h : LotStepW P l m) :
    Weakly P d (putLot i (some m) d) := weakly_lots rfl rfl rfl rfl (keepsLots_putLot i l m d hl h)

theorem held_putLot (i : Fin 8) (m : Lot) (d : Device) (h : HeldIffHolds d → (m.state = .held ↔ holdsLot m = true)) :
    HeldIffHolds d → HeldIffHolds (putLot i (some m) d) := by
  intro a j x hx
  rw [lotAt_putLot] at hx; split at hx
  · obtain rfl := Option.some.inj hx; exact h a
  · exact a j x hx

theorem keeps_putLot (i : Fin 8) (l m : Lot) (d : Device) (hl : lotAt d i = some l) (h : LotStep P l m) :
    Keeps P d (putLot i (some m) d) :=
  ⟨weakly_putLot i l m d hl h.weak, held_putLot i m d fun a => h.held (a i l hl)⟩

theorem modifyLot_some {i : Fin 8} {l : Lot} {d : Device} (f : Lot → Lot) (h : lotAt d i = some l) :
    modifyLot i f d = putLot i (some (f l)) d := by simp [modifyLot, h]

theorem modifyLot_none {i : Fin 8} {d : Device} (f : Lot → Lot) (h : lotAt d i = none) :
    modifyLot i f d = putLot i none d := by simp [modifyLot, h]

/-! ### A slot emptied -/

theorem keeps_empty (i : Fin 8) (d : Device) : Keeps P d (putLot i none d) := by
  have key : ∀ {j : Fin 8} {x : Lot}, lotAt (putLot i none d) j = some x → lotAt d j = some x := by
    intro j x hx
    rw [lotAt_putLot] at hx; split at hx
    · cases hx
    · exact hx
  exact ⟨weakly_lots rfl rfl rfl rfl ⟨fun a => ⟨fun j x hx => a.1 j x (key hx), a.2⟩, fun a j x hx => a j x (key hx),
    fun _ a => ⟨fun j k x y hx hy => a.1 j k x y (key hx) (key hy), fun j x hx => a.2 j x (key hx)⟩⟩,
    fun a j x hx => a j x (key hx)⟩

theorem weakly_modifyLot (i : Fin 8) (f : Lot → Lot) (d : Device) (h : ∀ l, LotStepW P l (f l)) :
    Weakly P d (modifyLot i f d) := by
  cases hl : lotAt d i with
  | none => rw [modifyLot_none f hl]; exact (keeps_empty i d).weak
  | some l => rw [modifyLot_some f hl]; exact weakly_putLot i l _ d hl (h l)

theorem keeps_modifyLot (i : Fin 8) (f : Lot → Lot) (d : Device) (h : ∀ l, lotAt d i = some l → LotStep P l (f l)) :
    Keeps P d (modifyLot i f d) := by
  cases hl : lotAt d i with
  | none => rw [modifyLot_none f hl]; exact keeps_empty i d
  | some l => rw [modifyLot_some f hl]; exact keeps_putLot i l _ d hl (h l hl)

/-- A lot record changed in fields that no invariant reads. -/
theorem lotStep_of_eq {l m : Lot} (ha : m.acc = l.acc) (hs : m.summary = l.summary) (hh : m.holds = l.holds)
    (ho : m.overflow = l.overflow) (ht : m.state = l.state) (hr : m.resume = l.resume)
    (hp : m.opened = l.opened) : LotStep P l m := by
  refine ⟨⟨?_, ?_, ?_, ?_⟩, ?_⟩
  · unfold LotBalances; rw [ha, hs]; exact id
  · unfold HoldSetSound; rw [hh]; exact id
  · unfold HasCell; rw [hp, ht]; exact fun _ _ => id
  · unfold MidInsertion; rw [hp, ht, hr]; exact fun _ => id
  · unfold holdsLot; rw [hh, ho, ht]; exact id

/-- The accumulator set changed, the balance kept. -/
theorem lotStep_acc {l m : Lot} (ha : Balanced l.acc → Balanced m.acc) (hs : m.summary = l.summary)
    (hh : m.holds = l.holds) (ho : m.overflow = l.overflow) (ht : m.state = l.state) (hr : m.resume = l.resume)
    (hp : m.opened = l.opened) : LotStep P l m := by
  refine ⟨⟨?_, ?_, ?_, ?_⟩, ?_⟩
  · unfold LotBalances; rw [hs]; exact fun h => ⟨ha h.1, h.2⟩
  · unfold HoldSetSound; rw [hh]; exact id
  · unfold HasCell; rw [hp, ht]; exact fun _ _ => id
  · unfold MidInsertion; rw [hp, ht, hr]; exact fun _ => id
  · unfold holdsLot; rw [hh, ho, ht]; exact id

/-! ## Folds -/

theorem keeps_foldl {α : Type} (f : Device → α → Device) (h : ∀ d a, Keeps P d (f d a)) (l : List α)
    (d : Device) : Keeps P d (l.foldl f d) := by
  induction l generalizing d with
  | nil => exact .refl d
  | cons a l ih => exact (h d a).trans (ih _)

/-! ## The transmit queue (R129) -/

theorem goesBefore_total {a b : QEntry} (h : a.age ≠ b.age) (k : goesBefore a b = false) :
    goesBefore b a = true := by
  simp only [goesBefore, Bool.or_eq_false_iff, decide_eq_false_iff_not, Bool.and_eq_false_iff,
    Bool.or_eq_true, decide_eq_true_eq, Bool.and_eq_true, beq_iff_eq, beq_eq_false_iff_ne] at *
  omega

theorem goesBefore_trans {a b c : QEntry} (h : goesBefore a b = true) (k : goesBefore b c = true) :
    goesBefore a c = true := by
  simp only [goesBefore, Bool.or_eq_true, decide_eq_true_eq, Bool.and_eq_true, beq_iff_eq] at *
  omega

theorem mem_insertEntry (e x : QEntry) (q : List QEntry) : x ∈ insertEntry e q ↔ x = e ∨ x ∈ q := by
  induction q with
  | nil => simp [insertEntry]
  | cons y ys ih =>
    unfold insertEntry
    split
    · simp
    · simp only [List.mem_cons, ih]; tauto

theorem length_insertEntry (e : QEntry) (q : List QEntry) : (insertEntry e q).length = q.length + 1 := by
  induction q with
  | nil => rfl
  | cons y ys ih => unfold insertEntry; split <;> simp [ih]

theorem insertEntry_order (e : QEntry) (q : List QEntry) (h : InQueueOrder q)
    (n : ∀ x ∈ q, x.age ≠ e.age) : InQueueOrder (insertEntry e q) := by
  induction q with
  | nil => simp [insertEntry, InQueueOrder]
  | cons y ys ih =>
    have hy := List.pairwise_cons.1 h
    unfold insertEntry
    split
    · rename_i he
      refine List.pairwise_cons.2 ⟨fun x hx => ?_, h⟩
      rcases List.mem_cons.1 hx with rfl | hx
      · exact he
      · exact goesBefore_trans he (hy.1 x hx)
    · rename_i he
      refine List.pairwise_cons.2 ⟨fun x hx => ?_, ih hy.2 fun x hx => n x (List.mem_cons_of_mem _ hx)⟩
      rcases (mem_insertEntry e x ys).1 hx with rfl | hx
      · exact goesBefore_total (fun c => n y (List.mem_cons_self ..) c.symm) (by simpa using he)
      · exact hy.1 x hx

theorem insertEntry_perm (e : QEntry) (q : List QEntry) : (insertEntry e q).Perm (e :: q) := by
  induction q with
  | nil => exact .refl _
  | cons y ys ih =>
    unfold insertEntry; split
    · exact .refl _
    · exact (ih.cons y).trans (.swap ..)

/-- The queue filtered, everything else of FLI as it is. -/
theorem queueSound_filter (f : Fli) (p : QEntry → Bool) (h : QueueSound f) :
    QueueSound { f with queue := f.queue.filter p } := by
  obtain ⟨o, ⟨a, n, s⟩, c⟩ := h
  refine ⟨o.filter _, ⟨fun e he => a e (List.mem_filter.1 he).1,
    n.sublist ((List.filter_sublist ..).map _), fun sl hs => ?_⟩, ?_⟩
  · exact ⟨(s sl hs).1, fun e he => (s sl hs).2 e (List.mem_filter.1 he).1⟩
  · have := List.length_filter_le p f.queue
    simp only [placesTaken] at c ⊢; omega

/-- An entry whose age no queued entry has goes in at its place. -/
theorem nodup_insertEntry (e : QEntry) (q : List QEntry) (h : (q.map (·.age)).Nodup)
    (n : ∀ x ∈ q, x.age ≠ e.age) : ((insertEntry e q).map (·.age)).Nodup := by
  rw [((insertEntry_perm e q).map _).nodup_iff]
  simp only [List.map_cons, List.nodup_cons, List.mem_map, not_exists, not_and]
  exact ⟨n, h⟩

/-- A new entry with the next age, where a place is free. -/
theorem queueSound_enqueue (b : Bulletin) (d : Device) (h : QueueSound d.fli) (r : placesTaken d.fli < 12) :
    QueueSound (enqueue b d).fli := by
  obtain ⟨o, ⟨a, n, s⟩, c⟩ := h
  have new : ∀ x ∈ d.fli.queue, x.age ≠ d.fli.nextAge := fun x hx => by have := a x hx; omega
  refine ⟨insertEntry_order _ _ o new, ⟨fun e he => ?_, nodup_insertEntry _ _ n new,
    fun sl hs => ⟨?_, fun e he => ?_⟩⟩, ?_⟩
  · rcases (mem_insertEntry _ e _).1 he with rfl | he
    · simp [enqueue]
    · have := a e he; simp only [enqueue]; omega
  · have := (s sl hs).1; simp only [enqueue]; omega
  · rcases (mem_insertEntry _ e _).1 he with rfl | he
    · have := (s sl hs).1; simp only; omega
    · exact (s sl hs).2 e he
  · have : placesTaken (enqueue b d).fli = placesTaken d.fli + 1 := by
      unfold placesTaken
      rw [show (enqueue b d).fli.queue.length = d.fli.queue.length + 1 from length_insertEntry ..,
        show (enqueue b d).fli.slot = d.fli.slot from rfl]
      omega
    omega

/-! ## Reports and removals -/

theorem keeps_clearInPlay (b : Bulletin) (d : Device) : Keeps P d (clearInPlay b d) := by
  cases b <;> exact keeps_of_eq rfl rfl rfl rfl (park_same rfl rfl rfl)

theorem keeps_claimLost (d : Device) : Keeps P d (claimLost d) := by
  unfold claimLost; split
  · exact keeps_of_eq rfl rfl rfl rfl (parked_of_eq rfl rfl rfl (fun _ m => .inl m) fun _ m => .inl m)
  · exact .refl d

theorem clearInPlay_fli (b : Bulletin) (d : Device) : (clearInPlay b d).fli = d.fli := by cases b <;> rfl
theorem claimLost_fli (d : Device) : (claimLost d).fli = d.fli := by unfold claimLost; split <;> rfl

theorem keeps_reportGone (b : Bulletin) (d : Device) : Keeps P d (reportGone b d) := keeps_clearInPlay b d
theorem reportGone_fli (b : Bulletin) (d : Device) : (reportGone b d).fli = d.fli := clearInPlay_fli b d

theorem keeps_reportLost (b : Bulletin) (d : Device) : Keeps P d (reportLost b d) := by
  unfold reportLost; split
  · exact keeps_claimLost d
  · exact keeps_clearInPlay b d

theorem reportLost_fli (b : Bulletin) (d : Device) : (reportLost b d).fli = d.fli := by
  unfold reportLost; split
  · exact claimLost_fli d
  · exact clearInPlay_fli b d

theorem foldl_fli {α : Type} (f : Device → α → Device) (h : ∀ d a, (f d a).fli = d.fli) (l : List α)
    (d : Device) : (l.foldl f d).fli = d.fli := by
  induction l generalizing d with
  | nil => rfl
  | cons a l ih => exact (ih _).trans (h d a)

/-- A change of FLI that keeps its station number, a sound queue and a sound score. -/
theorem keeps_fli {d e : Device} (hc : e.ctp = d.ctp) (hl : e.lmg = d.lmg) (hr : e.rlu = d.rlu)
    (ha : e.asu = d.asu) (hh : e.hpt = d.hpt)
    (hs : e.fli.station = d.fli.station) (hq : QueueSound d.fli → QueueSound e.fli)
    (hk : ScoreSound d → ScoreSound e) : Keeps P d e :=
  ⟨⟨keepsCtp_of_eq hc hs, keepsLots_of_eq hl (by rw [hr]), ⟨hq, hk⟩, park_same ha (by rw [hh]) hs⟩, held_of_eq hl⟩

/-- A score that is kept, on a line that is kept, with a slot that stays empty where it is. -/
theorem score_of_eq {d e : Device} (hc : live e = live d) (hs : e.fli.score = d.fli.score)
    (hl : e.fli.line = d.fli.line) (hk : d.fli.slot = none → e.fli.slot = none) :
    ScoreSound d → ScoreSound e := by
  unfold ScoreSound; rw [hc, hs, hl]
  exact fun h => ⟨h.1, fun n => ⟨hk (h.2.1 n).1, (h.2.1 n).2⟩, fun n => h.2.2 fun e => n (hk e)⟩

theorem removeQueued_fli (p : Bulletin → Bool) (d : Device) :
    (removeQueued p d).fli = { d.fli with queue := d.fli.queue.filter fun e => !p e.bulletin } := by
  unfold removeQueued
  exact foldl_fli _ (fun d (e : QEntry) => reportGone_fli e.bulletin d) _ _

theorem keeps_removeQueued (p : Bulletin → Bool) (d : Device) : Keeps P d (removeQueued p d) := by
  unfold removeQueued
  dsimp only
  exact Keeps.trans (keeps_fli (e := { d with fli := { d.fli with
      queue := d.fli.queue.filter fun e => !p e.bulletin } }) rfl rfl rfl rfl rfl rfl (queueSound_filter d.fli _)
      (score_of_eq rfl rfl rfl id))
    (keeps_foldl _ (fun d (e : QEntry) => keeps_reportGone e.bulletin d) _ _)

/-- An entry that satisfies `p` leaves a place. -/
theorem placesTaken_removeQueued (p : Bulletin → Bool) (d : Device)
    (h : d.fli.queue.any (fun e => p e.bulletin) = true) :
    placesTaken (removeQueued p d).fli < placesTaken d.fli := by
  rw [removeQueued_fli]
  have : (d.fli.queue.filter fun e => !p e.bulletin).length < d.fli.queue.length := by
    obtain ⟨e, he, hp⟩ := List.any_eq_true.1 h
    exact List.length_filter_lt_length_iff_exists.2 ⟨e, he, by simp [hp]⟩
  simp only [placesTaken]; omega

theorem keeps_enqueue (b : Bulletin) (d : Device) (h : QueueSound d.fli → placesTaken d.fli < 12) :
    Keeps P d (enqueue b d) :=
  keeps_fli rfl rfl rfl rfl rfl rfl (fun q => queueSound_enqueue b d q (h q)) (score_of_eq rfl rfl rfl id)

/-- All but the queue's bounds, which an enqueue can break. -/
theorem keeps_replace (b : Bulletin) (p : Bulletin → Bool) (d : Device)
    (h : d.fli.queue.any (fun e => p e.bulletin) = true) : Keeps P d (enqueue b (removeQueued p d)) := by
  have k : Keeps P d _ := keeps_removeQueued p d
  have c := placesTaken_removeQueued p d h
  have q : QueueSound d.fli → QueueSound (enqueue b (removeQueued p d)).fli := fun q =>
    queueSound_enqueue b _ (k.weak.fli.queue q) (by have := q.2.2; omega)
  exact ⟨⟨k.weak.ctp.trans (keepsCtp_of_eq rfl rfl), k.weak.lots.trans (keepsLots_of_eq rfl rfl),
    ⟨q, fun a => score_of_eq rfl rfl rfl id (k.weak.fli.score a)⟩,
    fun a => park_same rfl rfl rfl (k.weak.park a)⟩, fun a => held_of_eq rfl (k.held a)⟩

theorem keeps_refuseOffer (b : Bulletin) (d : Device) : Keeps P d (refuseOffer b d) := by
  cases b <;> unfold refuseOffer
  · exact (keeps_raise ..).trans (keeps_clearInPlay _ _)
  · exact (keeps_raise ..).trans (keeps_clearInPlay _ _)
  · exact (keeps_raise ..).trans (keeps_claimLost _)
  all_goals exact keeps_raise ..

/-- R130, R131: an offer ends in the queue sound and in its bounds, whatever it does. -/
theorem keeps_offer (b : Bulletin) (d : Device) : Keeps P d (offer b d) := by
  unfold offer
  split
  · exact keeps_reportLost b d
  split
  · exact keeps_replace b _ d ‹_›
  split
  · exact keeps_enqueue b d fun _ => ‹_›
  split
  · exact keeps_replace b _ d ‹_›
  split
  · exact keeps_replace b _ d ‹_›
  · exact keeps_refuseOffer b d

theorem keeps_removeClaim (d : Device) : Keeps P d (removeClaim d) := by
  unfold removeClaim
  refine (keeps_removeQueued isClaim d).trans (keeps_fli rfl rfl rfl rfl rfl rfl ?_
    (score_of_eq rfl rfl rfl fun h => ?_))
  · rintro ⟨o, ⟨a, n, s⟩, c⟩
    refine ⟨o, ⟨a, n, fun sl hs => ?_⟩, ?_⟩
    · obtain ⟨sl', hs', rfl⟩ := Option.map_eq_some_iff.1 hs
      have := s sl' hs'
      split <;> exact this
    · simp only [placesTaken, Option.isSome_map] at c ⊢; exact c
  · simp [h]

/-- The slot emptied, its bulletin not going back. -/
theorem queueSound_dropSlot (f : Fli) (h : QueueSound f) : QueueSound { f with slot := none } :=
  ⟨h.1, ⟨h.2.1.1, h.2.1.2.1, fun _ hs => by cases hs⟩,
    by have := h.2.2; simp only [placesTaken] at this ⊢; simp; omega⟩

theorem keeps_returnSlot (d : Device) : Keeps P d (returnSlot d) := by
  unfold returnSlot
  split
  · exact .refl d
  rename_i sl hs
  have k : Keeps P d { d with fli := { d.fli with slot := none } } :=
    keeps_fli rfl rfl rfl rfl rfl rfl (queueSound_dropSlot d.fli) (score_of_eq rfl rfl rfl fun _ => rfl)
  simp only
  split
  · exact k.trans (keeps_reportGone ..)
  split
  · exact k.trans (keeps_reportLost ..)
  · refine keeps_fli rfl rfl rfl rfl rfl rfl ?_ (score_of_eq rfl rfl rfl fun _ => rfl)
    rintro ⟨o, ⟨a, n, s⟩, c⟩
    have hsl := s sl hs
    refine ⟨insertEntry_order _ _ o fun x hx => hsl.2 x hx, ⟨fun e he => ?_,
      nodup_insertEntry _ _ n hsl.2, fun _ h => by cases h⟩, ?_⟩
    · rcases (mem_insertEntry _ e _).1 he with rfl | he
      · exact hsl.1
      · exact a e he
    · simp only [placesTaken, hs, Option.isSome_some, if_true, length_insertEntry] at c ⊢; simp; omega

/-- R121: after it the slot is empty. -/
theorem returnSlot_slot (d : Device) : (returnSlot d).fli.slot = none := by
  unfold returnSlot
  split
  · assumption
  simp only
  split
  · rw [reportGone_fli]
  split
  · rw [reportLost_fli]
  · rfl

theorem returnSlot_score (d : Device) : (returnSlot d).fli.score = d.fli.score := by
  unfold returnSlot
  split
  · rfl
  simp only
  split
  · rw [reportGone_fli]
  split
  · rw [reportLost_fli]
  · rfl

theorem returnSlot_line (d : Device) : (returnSlot d).fli.line = d.fli.line := by
  unfold returnSlot
  split
  · rfl
  simp only
  split
  · rw [reportGone_fli]
  split
  · rw [reportLost_fli]
  · rfl

theorem keeps_enterBarred (d : Device) : Keeps P d (enterBarred d) := by
  unfold enterBarred
  split
  · exact .refl d
  · refine Keeps.trans (keeps_fli (e := { d with fli := { d.fli with
      line := .barred, quietTimer := none, statusTimer := none, queue := [] } }) rfl rfl rfl rfl rfl rfl ?_ ?_)
      (keeps_foldl _ (fun d (e : QEntry) => keeps_reportLost e.bulletin d) _ _)
    · rintro ⟨o, ⟨a, n, s⟩, c⟩
      refine ⟨List.Pairwise.nil, ⟨fun _ h => by simp at h, List.nodup_nil,
        fun sl h => ⟨(s sl h).1, fun _ h => by simp at h⟩⟩, ?_⟩
      simp only [placesTaken] at c ⊢; simp; split <;> omega
    · exact fun h => ⟨h.1, fun n => ⟨(h.2.1 n).1, .inr rfl, (h.2.1 n).2.2⟩, fun n => ⟨(h.2.2 n).1, by simp, by simp⟩⟩

theorem keeps_duplicateHeard (d : Device) : Keeps P d (duplicateHeard d) :=
  (keeps_raise ..).trans (keeps_enterBarred _)

end Sys2Proof.Machine
end

