-- ==== Sys2Proof/Laws/Lots.lean ====
section
/-! SUPPORT. What the searches of the lot table find (R1, R6, R7), the moves of a lot record between its states,
and the checks that run after every event, up to `settle`: `Keeps` for each of them. -/

namespace Sys2Proof.Machine

variable {P : Prop}

/-! ## Searches -/

theorem mem_slots (i : Fin 8) : i ∈ slots := by revert i; decide

theorem mem_lotList {d : Device} {i : Fin 8} {l : Lot} : (i, l) ∈ lotList d ↔ lotAt d i = some l := by
  simp only [lotList, List.mem_filterMap, Option.map_eq_some_iff, Prod.mk.injEq]
  constructor
  · rintro ⟨j, _, x, h, rfl, rfl⟩; exact h
  · exact fun h => ⟨i, mem_slots i, l, h, rfl, rfl⟩

theorem openLot_some {d : Device} {i : Fin 8} {l : Lot} (h : openLot d = some (i, l)) :
    lotAt d i = some l ∧ l.opened = true :=
  ⟨mem_lotList.1 (List.mem_of_find?_eq_some h), by simpa using List.find?_some h⟩

theorem openLot_none {d : Device} (h : openLot d = none) {i : Fin 8} {l : Lot} (k : lotAt d i = some l) :
    l.opened = false := by
  have := List.find?_eq_none.1 h (i, l) (mem_lotList.2 k)
  simpa using this

theorem anyOpen_false {d : Device} (h : anyOpen d = false) {i : Fin 8} {l : Lot} (k : lotAt d i = some l) :
    l.opened = false := openLot_none (by simpa [anyOpen] using h) k

theorem stagingLot_some {d : Device} {i : Fin 8} {l : Lot} (h : stagingLot d = some (i, l)) :
    lotAt d i = some l ∧ l.state = .staging :=
  ⟨mem_lotList.1 (List.mem_of_find?_eq_some h), by simpa using List.find?_some h⟩

theorem stagingLot_none {d : Device} (h : stagingLot d = none) {i : Fin 8} {l : Lot} (k : lotAt d i = some l) :
    l.state ≠ .staging := by
  have := List.find?_eq_none.1 h (i, l) (mem_lotList.2 k)
  simpa using this

theorem findLot_some {d : Device} {p : Lot → Bool} {i : Fin 8} (h : findLot d p = some i) :
    ∃ l, lotAt d i = some l ∧ p l = true := by
  have := List.find?_some h
  simpa [Option.any_eq_true] using this

/-- The pick of a fold that keeps a member of the list or the pick before. -/
theorem foldl_pick {α : Type} (f : Option α → α → Option α) (h : ∀ o e, f o e = some e ∨ f o e = o) (l : List α)
    (o : Option α) (x : α) (k : l.foldl f o = some x) : o = some x ∨ x ∈ l := by
  induction l generalizing o with
  | nil => exact .inl k
  | cons e l ih =>
    rcases ih _ k with hx | hx
    · rcases h o e with hf | hf
      · rw [hf] at hx; exact .inr (Option.some.inj hx ▸ List.mem_cons_self ..)
      · rw [hf] at hx; exact .inl hx
    · exact .inr (List.mem_cons_of_mem _ hx)

theorem firstInQueueOrder_some {d : Device} {p : Lot → Bool} {i : Fin 8} {l : Lot}
    (h : firstInQueueOrder d p = some (i, l)) : lotAt d i = some l ∧ p l = true := by
  rcases foldl_pick _ (fun o e => by cases o with
    | none => exact .inl rfl
    | some b => simp only; split <;> simp) _ _ _ h with hn | hm
  · cases hn
  · have := List.mem_filter.1 hm; exact ⟨mem_lotList.1 this.1, this.2⟩

/-! ## Moves of a lot record -/

/-- From one state to another, neither HELD (or from HELD when nothing holds the lot). -/
theorem lotStep_move {l m : Lot} (hb : LotBalances l → LotBalances m) (hh : m.holds = l.holds)
    (ho : m.overflow = l.overflow) (hl : l.state ≠ .held ∨ holdsLot l = false) (hm : m.state ≠ .held)
    (hc : P → (MidInsertion l → l.opened = true) → HasCell m → HasCell l)
    (hd : P → (MidInsertion l → l.opened = true) → MidInsertion m → m.opened = true) : LotStep P l m := by
  refine ⟨⟨hb, ?_, hc, hd⟩, fun h => ?_⟩
  · unfold HoldSetSound; rw [hh]; exact id
  · have : holdsLot m = holdsLot l := by unfold holdsLot; rw [hh, ho]
    rw [this]
    have hf : holdsLot l = false := hl.elim (fun n => by
      cases e : holdsLot l
      · rfl
      · exact absurd (h.2 e) n) id
    simp [hm, hf]

theorem balances_of_eq {l m : Lot} (ha : m.acc = l.acc) (hs : m.summary = l.summary) :
    LotBalances l → LotBalances m := by unfold LotBalances; rw [ha, hs]; exact id

theorem balanced_zero : Balanced .zero := ⟨by decide, by decide⟩

/-! ## Staging selection (R7) -/

theorem keeps_stagingSelect (d : Device) : Keeps P d (stagingSelect d) := by
  unfold stagingSelect
  split
  · exact .refl d
  rename_i hn
  simp only [Bool.or_eq_true, not_or, Bool.not_eq_true, Option.isSome_eq_false_iff, Option.isNone_iff_eq_none] at hn
  split
  · rename_i i l hf
    obtain ⟨hl, hq⟩ := firstInQueueOrder_some hf
    have hq : l.state = .queued := by simpa using hq
    rw [modifyLot_some _ hl]
    have hs : ∀ {j x}, lotAt d j = some x → ¬ HasCell x := fun k c => by
      rcases c with c | c
      · simp [anyOpen_false hn.1 k] at c
      · exact stagingLot_none hn.2 k c
    have bal : HoldSetsSound d → HoldSetsSound (putLot i (some { l with state := .staging }) d) := by
      intro a j x hx; rw [lotAt_putLot] at hx; split at hx
      · obtain rfl := Option.some.inj hx; exact a i l hl
      · exact a j x hx
    refine ⟨weakly_lots rfl rfl rfl rfl ⟨fun a => ⟨fun j x hx => ?_, a.2⟩, bal, fun _ a => ⟨?_, ?_⟩⟩,
      held_putLot i _ d fun a => ?_⟩
    · rw [lotAt_putLot] at hx; split at hx
      · obtain rfl := Option.some.inj hx; exact a.1 i l hl
      · exact a.1 j x hx
    · intro j k x y hx hy cx cy
      rw [lotAt_putLot] at hx hy
      split at hx <;> split at hy
      · subst_vars; rfl
      · exact absurd cy (hs hy)
      · exact absurd cx (hs hx)
      · exact absurd cx (hs hx)
    · intro j x hx mx
      rw [lotAt_putLot] at hx; split at hx
      · obtain rfl := Option.some.inj hx; simp [MidInsertion] at mx
      · exact a.2 j x hx mx
    · have := a i l hl; simp [hq, holdsLot] at this ⊢; exact this
  · exact .refl d

/-! ## The dock -/

theorem keeps_handlerGone (d : Device) : Keeps P d (handlerGone d) :=
  (keeps_setHpt _ d fun _ h => by cases h).trans (keeps_setTpm ..)

theorem keeps_undock (d : Device) : Keeps P d (undock d) := by
  unfold undock; split
  · exact ((keeps_sendHandler ..).trans (keeps_setHpt' _ _ rfl)).trans (keeps_setTpm ..)
  · exact (((keeps_sendHandler ..).trans (keeps_setHpt' _ _ rfl)).trans (keeps_setTpm ..)).trans
      (keeps_handlerGone _)
  · exact .refl d
  · exact .refl d

theorem keeps_kitOrder (k : Nat) (d : Device) : Keeps P d (kitOrder k d) :=
  (keeps_sendHandler ..).trans (keeps_setHpt' _ _ rfl)

/-! ## Parking (R143) -/

theorem ownStation_setEntry (h : Nat) (e : HandlerEntry) (d : Device) :
    ownStation (setEntry h e d) = ownStation d := rfl

/-- Parking a handler of the table. -/
theorem keeps_parkEntry (h k : Nat) (g : Option Grade) (d : Device) (hh : ParkedSound d → isHandler h = true) :
    Keeps P d (parkEntry h k g d) := by
  unfold parkEntry
  have k1 : Keeps P d (setEntry h (entryFree (ownStation d) k g) (offer (.park h k g) d)) :=
    (keeps_offer ..).trans (keeps_setEntry ..)
  refine ⟨⟨k1.weak.ctp.trans (keepsCtp_of_eq rfl rfl), k1.weak.lots.trans (keepsLots_of_eq rfl rfl),
    k1.weak.fli.trans (keepsFli_of_eq rfl rfl), fun a => ?_⟩, fun a => held_of_eq rfl (k1.held a)⟩
  have hs := (keeps_offer (P := True) (.park h k g) d).weak.ctp.station
  refine parked_join (k1.weak.park a) ?_ ?_ <;> rw [entryAt_setEntry _ _ (hh a)]
  · rfl
  · show some d.fli.station = some (offer (.park h k g) d).fli.station; rw [hs]

theorem dockedHandler_some {d : Device} {h : Nat} (k : dockedHandler d = some h) : d.hpt.handler = some h := by
  unfold dockedHandler at k; split at k
  · exact k
  · cases k

theorem keeps_parkDocked (d : Device) : Keeps P d (parkDocked d) := by
  unfold parkDocked; split
  · exact .refl d
  · rename_i h hd
    have hh : ParkedSound d → isHandler h = true := fun a => a.2.2.2.1 h (dockedHandler_some hd)
    -- the entry's handler is one of the table before the undock, and the list does not ask after it
    have k1 : Keeps P d (undock d) := keeps_undock d
    have k2 : ParkedSound d → Keeps P (undock d) (parkEntry h d.hpt.kit d.tpm.grade (undock d)) :=
      fun a => keeps_parkEntry _ _ _ _ fun _ => hh a
    have k3 : Keeps P (undock d) (setEntry h (entryFree (ownStation (undock d)) d.hpt.kit d.tpm.grade)
        (offer (.park h d.hpt.kit d.tpm.grade) (undock d))) := (keeps_offer ..).trans (keeps_setEntry ..)
    have k4 := k1.trans k3
    exact ⟨⟨k4.weak.ctp.trans (keepsCtp_of_eq rfl rfl), k4.weak.lots.trans (keepsLots_of_eq rfl rfl),
      k4.weak.fli.trans (keepsFli_of_eq rfl rfl), fun a => (k1.trans (k2 a)).weak.park a⟩,
      fun a => held_of_eq rfl (k4.held a)⟩

theorem keeps_releaseWon (h : Nat) (d : Device) (hh : ParkedSound d → isHandler h = true) :
    Keeps P d (releaseWon h d) := keeps_parkEntry _ _ _ _ hh

/-! ## The need -/

theorem keeps_endNeed (d : Device) : Keeps P d (endNeed d) := by
  unfold endNeed
  refine Keeps.trans (e := _) ?_ (keeps_setNeed _ _ fun _ h => by cases h)
  split
  · simp only
    split
    · exact (keeps_removeClaim d).trans (keeps_setEntry ..)
    · exact keeps_removeClaim d
  · exact keeps_removeClaim d
  · rename_i h _ ht; exact keeps_releaseWon h d fun a => a.2.2.2.2 h ht
  · exact .refl d

theorem handlerIds_isHandler {h : Nat} (m : h ∈ handlerIds) : isHandler h = true := by
  simp only [handlerIds, List.mem_map, List.mem_range] at m
  obtain ⟨n, hn, rfl⟩ := m
  simp only [isHandler, inRange, Bool.and_eq_true, decide_eq_true_eq]; omega

theorem candidate_isHandler {d : Device} {h : Nat} (k : candidate d = some h) : isHandler h = true := by
  unfold candidate at k; split at k
  · rename_i x hx; obtain rfl := Option.some.inj k; exact handlerIds_isHandler (List.mem_of_find?_eq_some hx)
  · exact handlerIds_isHandler (List.mem_of_find?_eq_some k)

theorem keeps_offerClaim (h : Nat) (d : Device) : Keeps P d (offerClaim h d) := by
  refine Keeps.trans ?_ (keeps_offer ..)
  apply keeps_setNeed'; rfl

/-- An offer leaves the need's target as it is. -/
theorem clearInPlay_target (b : Bulletin) (d : Device) :
    (clearInPlay b d).asu.need.target = d.asu.need.target := by cases b <;> rfl
theorem claimLost_target (d : Device) : (claimLost d).asu.need.target = d.asu.need.target := by
  unfold claimLost; split <;> rfl
theorem reportLost_target (b : Bulletin) (d : Device) :
    (reportLost b d).asu.need.target = d.asu.need.target := by
  unfold reportLost; split
  · exact claimLost_target d
  · exact clearInPlay_target b d

theorem removeQueued_target (p : Bulletin → Bool) (d : Device) :
    (removeQueued p d).asu.need.target = d.asu.need.target := by
  unfold removeQueued
  have : ∀ (l : List QEntry) (d : Device),
      (l.foldl (fun d e => reportGone e.bulletin d) d).asu.need.target = d.asu.need.target := by
    intro l; induction l with
    | nil => exact fun _ => rfl
    | cons e l ih => exact fun d => (ih _).trans (clearInPlay_target e.bulletin d)
  exact this _ _

theorem offer_target (b : Bulletin) (d : Device) : (offer b d).asu.need.target = d.asu.need.target := by
  unfold offer
  split
  · exact reportLost_target b d
  split
  · exact removeQueued_target _ d
  split
  · rfl
  split
  · exact removeQueued_target _ d
  split
  · exact removeQueued_target _ d
  · cases b <;> unfold refuseOffer
    · exact (clearInPlay_target _ _).trans (by simp)
    · exact (clearInPlay_target _ _).trans (by simp)
    · exact (claimLost_target _).trans (by simp)
    all_goals simp

theorem keeps_offerSeek (d : Device) : Keeps P d (offerSeek d) :=
  (keeps_offer ..).trans (keeps_setNeed' _ _ (by rw [offer_target]))

theorem keeps_seekEval (b : Bool) (d : Device) : Keeps P d (seekEval b d) := by
  unfold seekEval
  simp only
  split
  · exact keeps_setNeed' _ _ rfl
  split
  · rename_i h hc
    refine Keeps.trans ?_ (keeps_offerClaim ..)
    apply keeps_setNeed
    exact fun x hx => .inr (Option.some.inj hx ▸ candidate_isHandler hc)
  split
  · exact (keeps_kitOrder ..).trans (keeps_setNeed' _ _ rfl)
  split
  · exact keeps_offerSeek d
  · exact .refl d

theorem keeps_toSeeking (d : Device) : Keeps P d (toSeeking d) :=
  (keeps_setNeed _ _ fun _ h => by cases h).trans (keeps_seekEval ..)

theorem keeps_stagingReport (d : Device) : Keeps P d (stagingReport d) := by
  unfold stagingReport
  simp only
  split
  · exact .refl d
  have k : Keeps P d { d with asu := { d.asu with staging := (stagingLot d).map fun e => e.2.id } } :=
    keeps_of_eq rfl rfl rfl rfl (parked_of_eq rfl rfl rfl (fun _ m => .inl m) fun _ m => .inl m)
  split
  · split
    · exact k
    split
    · exact k.trans (keeps_setNeed' _ _ rfl)
    · exact k.trans (keeps_endNeed _)
  · exact k.trans (keeps_endNeed _)
  · exact k

theorem keeps_needEval (d : Device) : Keeps P d (needEval d) := by
  unfold needEval
  split
  · split
    · split
      · exact (keeps_setNeed _ _ fun _ h => by cases h).trans (keeps_toSeeking _)
      · exact .refl d
    · exact .refl d
  · split
    · exact keeps_seekEval ..
    · exact keeps_endNeed d
  · split
    · exact .refl d
    · exact keeps_endNeed d
  · split
    · exact .refl d
    · exact keeps_endNeed d
  · split
    · exact .refl d
    split
    · exact keeps_toSeeking d
    · exact keeps_endNeed d

theorem keeps_wonPark (d : Device) : Keeps P d (wonPark d) := by
  unfold wonPark; split
  · exact keeps_parkDocked d
  · exact .refl d

theorem keeps_gradeCPark (d : Device) : Keeps P d (gradeCPark d) := by
  unfold gradeCPark; split
  · exact keeps_parkDocked d
  · exact .refl d

theorem keeps_asuEval (d : Device) : Keeps P d (asuEval d) :=
  (((keeps_stagingReport d).trans (keeps_needEval _)).trans (keeps_wonPark _)).trans (keeps_gradeCPark _)

/-! ## Load, soak, arming -/

theorem keeps_loadCheck (d : Device) : Keeps P d (loadCheck d) := by
  unfold loadCheck
  simp only
  split
  · exact keeps_setTpt ..
  split
  · exact (keeps_setTpt ..).trans (((keeps_sendTester ..).trans (keeps_setTpt ..)).trans (keeps_clearArm _))
  · exact keeps_setTpt ..

theorem keeps_startSoak (l : Lot) (d : Device) : Keeps P d (startSoak l d) := by
  unfold startSoak; dsimp only
  exact Keeps.trans (keeps_sendHandler ..) (keeps_setHpt' _ _ rfl)

theorem keeps_soakCheck (d : Device) : Keeps P d (soakCheck d) := by
  unfold soakCheck
  simp only
  split
  · exact keeps_setHpt' _ _ rfl
  split
  · refine Keeps.trans ?_ (keeps_startSoak ..)
    apply keeps_setHpt'; rfl
  · exact keeps_setHpt' _ _ rfl

theorem keeps_sendArm (l : Lot) (m : BitVec 8) (d : Device) : Keeps P d (sendArm l m d) := by
  unfold sendArm; dsimp only
  exact Keeps.trans (keeps_sendTester ..) (keeps_setTpt ..)

theorem keeps_insertionStart (i : Fin 8) (l : Lot) (d : Device) (hl : lotAt d i = some l)
    (hs : l.state = .staging) : Keeps P d (insertionStart i l d) := by
  unfold insertionStart
  simp only
  refine Keeps.trans ?_ (keeps_sendArm ..)
  refine Keeps.trans (Keeps.trans (Keeps.trans ?_ (keeps_setTpt ..)) (keeps_setHpt' _ _ rfl)) (keeps_setTpm ..)
  refine keeps_modifyLot i openInsertion d fun x hx => ?_
  obtain rfl : l = x := Option.some.inj (hl.symm.trans hx)
  refine lotStep_move (fun b => ⟨balanced_zero, b.2⟩) rfl rfl (.inl (by simp [hs])) (by simp [openInsertion, hs])
    (fun _ _ _ => .inr hs) (fun _ _ _ => rfl)

theorem keeps_startPass (i : Fin 8) (l : Lot) (k : Nat) (d : Device) : Keeps P d (startPass i l k d) :=
  ((keeps_sendHandler ..).trans (keeps_setHpt' _ _ rfl)).trans
    (keeps_modifyLot _ _ _ fun _ _ => lotStep_of_eq rfl rfl rfl rfl rfl rfl rfl)

theorem passState_ne (k : Nat) : passState k ≠ .held ∧ passState k ≠ .staging := by
  unfold passState; split <;> simp

theorem keeps_enterPass (i : Fin 8) (l x : Lot) (k : Nat) (d : Device) (hl : lotAt d i = some l)
    (ho : P → (MidInsertion l → l.opened = true) → l.opened = true) (hs : l.state ≠ .held ∨ holdsLot l = false) :
    Keeps P d (enterPass i x k d) := by
  unfold enterPass
  simp only
  have k1 : Keeps P d (modifyLot i (fun l => { l with state := passState k, resume := none }) d) := by
    refine keeps_modifyLot i _ d fun y hy => ?_
    obtain rfl : l = y := Option.some.inj (hl.symm.trans hy)
    exact lotStep_move id rfl rfl hs (passState_ne k).1 (fun p m _ => .inl (ho p m)) (fun p m _ => ho p m)
  split
  · exact k1
  · exact k1.trans (keeps_startPass ..)

theorem keeps_readyCheck (d : Device) : Keeps P d (readyCheck d) := by
  unfold readyCheck
  split
  · exact .refl d
  rename_i i l hs
  obtain ⟨hl, hst⟩ := stagingLot_some hs
  split
  · split
    · exact keeps_insertionStart i l d hl hst
    · exact .refl d
  rename_i ho
  have ho : l.opened = true := by simpa using ho
  split
  · exact .refl d
  split
  · split
    · exact keeps_enterPass i l l _ d hl (fun _ _ => ho) (.inl (by simp [hst]))
    · exact .refl d
  split
  · exact keeps_sendArm ..
  · exact .refl d

theorem keeps_restoreCheck (d : Device) : Keeps P d (restoreCheck d) := by
  unfold restoreCheck
  split
  · exact .refl d
  split
  · exact keeps_sendArm ..
  · exact .refl d

/-! ## Settling -/

theorem keeps_settleOnce (d : Device) : Keeps P d (settleOnce d) :=
  ((((((((keeps_stagingSelect d).trans (keeps_asuEval _)).trans (keeps_loadCheck _)).trans
    (keeps_soakCheck _)).trans (keeps_readyCheck _)).trans (keeps_restoreCheck _)).trans
    (keeps_feedEval _)).trans (keeps_idleEval _)).trans (keeps_queryEval _)

/-- The checks after an event keep every invariant. -/
theorem keeps_settle (d : Device) : Keeps P d (settle d) := by
  unfold settle; split
  · exact ((keeps_settleOnce d).trans (keeps_settleOnce _)).trans (keeps_settleOnce _)
  · exact .refl d

end Sys2Proof.Machine
end

