-- ==== Sys2Proof/Laws/Holds.lean ====
section
/-! SUPPORT. Hold requests: what `applyHold` makes of a hold set (R161), a lot's way into HELD (R9), and `Keeps` for
the requests and for the floor-hold operations that make them. -/

namespace Sys2Proof.Machine

variable {P : Prop}

/-! ## A hold set after a request (R161) -/

theorem repeatEntry_key (key : HoldKey) (u : Bool) (e : HoldEntry) : (repeatEntry key u e).key = e.key := by
  unfold repeatEntry; split
  · split <;> rfl
  · rfl

theorem applyHold_sound (t : Nat) (key : HoldKey) (u : Bool) (l : Lot) (h : HoldSetSound l) :
    HoldSetSound (applyHold t key u l) := by
  unfold applyHold
  cases ho : holdOutcome l key with
  | repeated =>
    refine ⟨by simpa using h.1, ?_⟩
    have : (l.holds.map (repeatEntry key u)).map (·.key) = l.holds.map (·.key) := by
      simp [Function.comp_def, repeatEntry_key]
    simpa only [this] using h.2
  | stored =>
    unfold holdOutcome at ho
    split at ho
    · cases ho
    rename_i hn
    split at ho
    · rename_i hlen
      refine ⟨by simp; omega, ?_⟩
      simp only [List.map_append, List.map_cons, List.map_nil]
      refine List.nodup_append.2 ⟨h.2, by simp, ?_⟩
      intro a ha b hb
      simp only [List.mem_singleton] at hb; subst hb
      rintro rfl
      obtain ⟨e, he, rfl⟩ := List.mem_map.1 ha
      exact hn (List.any_eq_true.2 ⟨e, he, by simp⟩)
    · cases ho
  | overflow => exact h

theorem applyHold_holds (t : Nat) (key : HoldKey) (u : Bool) (l : Lot) : holdsLot (applyHold t key u l) = true := by
  unfold applyHold
  cases ho : holdOutcome l key with
  | repeated =>
    unfold holdOutcome at ho
    split at ho
    · rename_i ha
      obtain ⟨e, he, -⟩ := List.any_eq_true.1 ha
      have : l.holds ≠ [] := fun c => by rw [c] at he; cases he
      simp [holdsLot, this]
    · split at ho <;> cases ho
  | stored => simp [holdsLot]
  | overflow => simp [holdsLot]

theorem applyHold_frame (t : Nat) (key : HoldKey) (u : Bool) (l : Lot) :
    (applyHold t key u l).state = l.state ∧ (applyHold t key u l).resume = l.resume ∧
    (applyHold t key u l).opened = l.opened ∧ (applyHold t key u l).acc = l.acc ∧
    (applyHold t key u l).summary = l.summary := by
  unfold applyHold; split <;> exact ⟨rfl, rfl, rfl, rfl, rfl⟩

theorem lotStepW_applyHold (t : Nat) (key : HoldKey) (u : Bool) (l : Lot) : LotStepW P l (applyHold t key u l) := by
  obtain ⟨a, b, c, x, y⟩ := applyHold_frame t key u l
  refine ⟨balances_of_eq x y, applyHold_sound t key u l, ?_, ?_⟩
  · unfold HasCell; rw [a, c]; exact fun _ _ => id
  · unfold MidInsertion; rw [a, b, c]; exact fun _ => id

theorem weakly_storeHold (i : Fin 8) (key : HoldKey) (u : Bool) (d : Device) : Weakly P d (storeHold i key u d) := by
  unfold storeHold
  split
  · exact .refl d
  rename_i l hl
  have k : Weakly P d (putLot i (some (applyHold (now d) key u l)) d) :=
    weakly_putLot i l _ d hl (lotStepW_applyHold ..)
  simp only
  split
  · exact k.trans (keeps_raise ..).weak
  · exact k

/-- Every lot but the one in slot `i` is HELD as its hold set asks. -/
def HeldBut (i : Fin 8) (d : Device) : Prop :=
  ∀ j l, j ≠ i → lotAt d j = some l → (l.state = .held ↔ holdsLot l = true)

theorem lotAt_storeHold (i j : Fin 8) (key : HoldKey) (u : Bool) (d : Device) :
    lotAt (storeHold i key u d) j = if j = i then (lotAt d i).map (applyHold (now d) key u) else lotAt d j := by
  unfold storeHold
  split
  · rename_i h; split
    · subst_vars; simp [h]
    · rfl
  rename_i l hl
  simp only
  split
  · rw [lotAt_of_lmg (raise_lmg ..), lotAt_putLot, hl]; simp only [eq_comm, Option.map_some]
  · rw [lotAt_putLot, hl]; simp only [eq_comm, Option.map_some]

/-! ## Into HELD (R9) -/

theorem lotStepW_heldLot (l : Lot) (h : l.state ≠ .held) : LotStepW P l (heldLot l) := by
  refine ⟨id, id, fun _ _ c => ?_, fun _ m c => ?_⟩
  · rcases c with c | c
    · exact .inl c
    · cases c
  · rcases c with c | c | c | ⟨-, r, hr, h1, h2⟩
    · cases c
    · cases c
    · cases c
    · show l.opened = true
      have hr : resumeFor l = r := Option.some.inj hr
      subst hr
      revert h1 h2
      unfold resumeFor
      split
      · simp
      · split
        · intros; assumption
        · simp
      · exact fun _ _ => m (.inl (by assumption))
      · exact fun _ _ => m (.inr (.inl (by assumption)))
      · exact fun _ _ => m (.inr (.inr (.inl (by assumption))))
      · simp
      · rename_i e; exact absurd e h

theorem weakly_enterHeld (i : Fin 8) (d : Device) : Weakly P d (enterHeld i d) := by
  unfold enterHeld
  split
  · exact .refl d
  rename_i l hl
  split
  · rename_i h
    exact (weakly_putLot i l _ d hl (lotStepW_heldLot l h.1)).trans (keeps_settle _).weak
  · exact .refl d

/-- After the report, every lot is HELD as its hold set asks, where only the reported one may not have been. -/
theorem held_enterHeld (i : Fin 8) (d : Device) (h : HeldBut i d)
    (k : ∀ l, lotAt d i = some l → l.state = .held → holdsLot l = true) : HeldIffHolds (enterHeld i d) := by
  unfold enterHeld
  split
  · rename_i hn
    intro j l hj
    by_cases e : j = i
    · subst e; rw [hn] at hj; cases hj
    · exact h j l e hj
  rename_i l hl
  split
  · rename_i hc
    apply (keeps_settle (P := True) _).held
    intro j x hx
    rw [lotAt_putLot] at hx
    split at hx
    · obtain rfl := Option.some.inj hx
      exact ⟨fun _ => hc.2, fun _ => rfl⟩
    · exact h j x (Ne.symm (by assumption)) hx
  · rename_i hc
    intro j x hx
    by_cases e : j = i
    swap
    · exact h j x e hx
    subst e
    obtain rfl : l = x := Option.some.inj (hl.symm.trans hx)
    refine ⟨k l hl, fun hh => ?_⟩
    by_contra hs; exact hc ⟨hs, hh⟩

/-- R161: a hold request keeps every invariant. -/
theorem keeps_holdRequest (i : Fin 8) (key : HoldKey) (u : Bool) (d : Device) :
    Keeps P d (holdRequest i key u d) := by
  refine ⟨(weakly_storeHold i key u d).trans (weakly_enterHeld i _), fun a => held_enterHeld i _ ?_ ?_⟩
  · intro j l hj hl
    rw [lotAt_storeHold, if_neg hj] at hl
    exact a j l hl
  · intro l hl _
    rw [lotAt_storeHold, if_pos rfl] at hl
    obtain ⟨x, -, rfl⟩ := Option.map_eq_some_iff.1 hl
    exact applyHold_holds ..

/-! ## Floor holds (R169, R170, R173) -/

theorem keeps_requestRemotes (p o t : Nat) (u : Bool) (d : Device) : Keeps P d (requestRemotes p o t u d) := by
  unfold requestRemotes
  refine keeps_foldl _ (fun d i => ?_) _ _
  split
  · exact keeps_holdRequest ..
  · exact .refl d

/-- The release records changed, each in its state, timer and cause alone. -/
theorem keeps_setRecords (f : Release → Release) (d : Device)
    (h : ∀ r, RecordBalances r → RecordBalances (f r)) :
    Keeps P d (setRecords (d.rlu.records.map f) d) := by
  refine ⟨⟨keepsCtp_of_eq rfl rfl, ⟨fun a => ⟨a.1, ?_⟩, id, fun _ => id⟩, keepsFli_of_eq rfl rfl,
    park_same rfl rfl rfl⟩, id⟩
  intro r hr
  obtain ⟨x, hx, rfl⟩ := List.mem_map.1 hr
  exact h x (a.2 x hx)

theorem balances_recallBy (o t p : Nat) (r : Release) (h : RecordBalances r) :
    RecordBalances (recallBy o t p r) := by
  unfold recallBy; split <;> exact h

theorem balances_recallUntracked (p : Nat) (r : Release) (h : RecordBalances r) :
    RecordBalances (recallUntracked p r) := by
  unfold recallUntracked; split <;> exact h

theorem keeps_applyFloorHold (e : FloorHold) (d : Device) : Keeps P d (applyFloorHold e d) := by
  unfold applyFloorHold; dsimp only
  exact (keeps_requestRemotes ..).trans (keeps_setRecords _ _ fun r => balances_recallBy _ _ _ r)

theorem keeps_offerHold (p t r : Nat) (d : Device) : Keeps P d (offerHold p t r d) :=
  (keeps_setHdu ..).trans (keeps_offer ..)

theorem keeps_offerLift (p t : Nat) (d : Device) : Keeps P d (offerLift p t d) :=
  (keeps_setHdu ..).trans (keeps_offer ..)

theorem keeps_addFloorEntry (e : FloorHold) (d : Device) : Keeps P d (addFloorEntry e d) := keeps_setHdu ..

theorem keeps_originate (p r : Nat) (d : Device) : Keeps P d (originate p r d) := by
  unfold originate; dsimp only
  exact ((keeps_setHdu ..).trans (keeps_addFloorEntry ..)).trans (keeps_offerHold ..)

theorem keeps_floorRequest (i : Fin 8) (key : Option Nat → HoldKey) (c : Nat) (d : Device) :
    Keeps P d (floorRequest i key c d) := by
  unfold floorRequest
  split
  · exact .refl d
  dsimp only
  split
  · exact keeps_holdRequest ..
  split
  · exact ((keeps_originate ..).trans (keeps_holdRequest ..)).trans (keeps_applyFloorHold ..)
  · exact (keeps_holdRequest ..).trans (keeps_raise ..)

end Sys2Proof.Machine
end

