-- ==== Sys2Proof/Tests/Slice0.lean ====
section
/-! SUPPORT. Small tests of the model: ill-formed terms that WellFormed refuses, frames worked from the layouts of
12.3 to 12.5, one step of each command with the result its rule gives, and for each obligation with hypotheses a
witness that meets them. Expected results are worked by hand from the rules named. -/

namespace Sys2Proof.Tests
open Sys2Proof.Machine

set_option Elab.async false

/-! ## States -/

/-- Fields of a CONFIGURE: bin 1 PASS, bin 2 RETEST with the floor-scope flag, bins 3 to 15 FAIL; window size 200,
yield limit 9000, n_min 20, site run limit 2, final yield limit 9000, missing limit 500, truncation; status
period 2 s, claim window 200 ms, dock wait 20 min, release delay 30 min, load timeout 120 s, sample period 15 s. -/
def fields : List CfgField :=
  (⟨0, 1⟩ :: ⟨0, 259⟩ :: List.replicate 13 ⟨0, 2⟩) ++ List.replicate 16 ⟨1, 0⟩ ++
  [⟨0, 9000⟩, ⟨0, 0⟩, ⟨0, 20⟩, ⟨0, 10000⟩, ⟨0, 2⟩, ⟨0, 0⟩, ⟨0, 1⟩, ⟨0, 9000⟩, ⟨0, 500⟩, ⟨0, 1⟩] ++
  List.replicate 6 ⟨1, 0⟩ ++ [⟨0, 10⟩, ⟨0, 10⟩, ⟨0, 15⟩, ⟨0, 1000⟩, ⟨0, 10⟩, ⟨0, 3⟩, ⟨0, 0⟩]

def blk : ConfigBlock := blockOf (fieldValues fields)

def st (d : Device) : State := ⟨[], d⟩

/-- In CONFIG, without and with a block. -/
def bare : Device := State.reset.dev
def configured : Device := { bare with ctp := { bare.ctp with config := some blk } }

/-- In JOINED as station 3, the line ACTIVE, nothing else done. -/
def joined : Device :=
  { bare with
    ctp := { bare.ctp with device := .joined, config := some blk, joinClock := 50 }
    fli := { Fli.reset 3 with line := .active, statusTimer := some 2000 }
    pins := { bare.pins with straps := 3 } }

/-- A lot in QUEUED with one insertion of program 100 at ROOM and one retest pass. -/
def queuedLot (id seq : Nat) : Lot := newLot id 7 9 1 1000 seq [⟨100, .room, 1⟩]

/-- A lot in counting pass 0 of its open insertion. -/
def runningLot : Lot :=
  { queuedLot 11 1 with state := .running, opened := true, step := some (.pass 0), passStarted := true }

def withLot (i : Fin 8) (l : Lot) (d : Device) : Device := putLot i (some l) d

/-- The cell is testing lot 11 in slot 0; lot 12 is QUEUED in slot 1. Handler 5 with kit 9 is docked. -/
def testing : Device := refreshPins
  { withLot 0 runningLot (withLot 1 (queuedLot 12 2) joined) with
    tpt := { Tpt.reset with
      link := .up, loaded := 100, arm := ⟨.armed, 11, 1, 100, 0xFF⟩, silence := some 5000, query := some 1000 }
    hpt := { Hpt.reset with
      presence := .present, handler := some 5, kit := 9, absence := some 3000, soaked := some .room
      soakHeard := true, pass := some 0, passHandler := some 5, intake := 3 }
    tpm := { Tpm.reset with sampled := some 5, period := some 0, grade := some .a }
    pins := { joined.pins with ready := true } }

/-- The same cell with the lot's record changed. -/
def testingWith (f : Lot → Lot) : Device := refreshPins (withLot 0 (f runningLot) testing)

/-- What a command leaves, asked of the device after it. -/
def leaves (c : Instr) (d : Device) (p : Device → Bool) : Bool :=
  match exec c (st d) with
  | .next t => p t.dev && t.pending == []
  | .fault _ => false
  | .refused _ => false

/-- The last response. -/
def answered (r : Response) (d : Device) : Bool := d.lines.terminalOut.getLast? == some r

def lotHas (i : Fin 8) (p : Lot → Bool) (d : Device) : Bool := (lotAt d i).any p

/-- A bank holds a record of this severity, code and reference. -/
def holdsFault (n : BankName) (v : Severity) (c : FaultCode) (r : Nat) (d : Device) : Bool :=
  (bank d n).record.any fun f => f.severity == v && f.code == c && f.reference == r

/-! ## WellFormed refuses -/

theorem test_wf_requests :
    ([.configure [], .configure (⟨256, 0⟩ :: fields.drop 1), .configure (⟨0, 65536⟩ :: fields.drop 1),
      .read 256 0 0 0, .read 0 256 0 0, .read 0 0 256 0, .read 0 0 0 256,
      .admitLot (2 ^ 32) 1 1 1 1 1 (List.replicate 4 ⟨1, 1, 1⟩), .admitLot 1 65536 1 1 1 1 (List.replicate 4 ⟨1, 1, 1⟩),
      .admitLot 1 1 256 1 1 1 (List.replicate 4 ⟨1, 1, 1⟩), .admitLot 1 1 1 256 1 1 (List.replicate 4 ⟨1, 1, 1⟩),
      .admitLot 1 1 1 1 (2 ^ 32) 1 (List.replicate 4 ⟨1, 1, 1⟩), .admitLot 1 1 1 1 1 256 (List.replicate 4 ⟨1, 1, 1⟩),
      .admitLot 1 1 1 1 1 1 [⟨1, 1, 1⟩], .admitLot 1 1 1 1 1 1 (List.replicate 4 ⟨65536, 1, 1⟩),
      .admitLot 1 1 1 1 1 1 (List.replicate 4 ⟨1, 256, 1⟩), .admitLot 1 1 1 1 1 1 (List.replicate 4 ⟨1, 1, 256⟩),
      .withdraw (2 ^ 32), .dispose (2 ^ 32) 0 0 0 0 0, .dispose 0 256 0 0 0 0, .dispose 0 0 256 0 0 0,
      .dispose 0 0 0 256 0 0, .dispose 0 0 0 0 256 0, .dispose 0 0 0 0 0 256, .placeHold (2 ^ 32) 0,
      .placeHold 0 256, .placeFloorHold 65536 0, .placeFloorHold 0 256, .liftFloor 256, .override 256 0,
      .override 0 256, .clearSticky (2 ^ 32), .clearFault 256, .setGrade 256, .collect 65536,
      .disposeRelease 65536 0, .disposeRelease 0 256, .badFrame true 256] : List Instr).all
        (fun c => !c.wellFormed) = true := by decide +kernel

theorem test_wf_messages :
    ([.loaded 65536, .loadFail 256, .armFail 256, .touchdown 256 0 [], .touchdown 0 256 [],
      .touchdown 1 1 [(16, 0)], .touchdown 1 1 [(0, 16)], .touchdown 1 1 (List.replicate 254 (0, 0)), .up 65536,
      .hello 256 0, .hello 0 256, .state 256, .soaked 256, .soakFail 256, .kitDone 256, .kitFail 256,
      .index 32768 false, .unitLost 256, .passEnd 256 0, .passEnd 0 (2 ^ 24),
      .handlerBadMessage true (some 256)] : List Instr).all (fun c => !c.wellFormed) = true := by decide +kernel

theorem test_wf_floor :
    ([.holdReceived 32 1 1 1, .holdReceived 0 4096 1 1, .holdReceived 0 1 256 1, .holdReceived 0 1 1 16,
      .liftReceived 32 1 1 0, .liftReceived 0 4096 1 0, .claimReceived 32 1 1 1, .claimReceived 0 256 1 1,
      .claimReceived 0 1 256 1, .claimReceived 0 1 1 256, .dockReceived 32 1 1 1, .dockReceived 0 256 1 1,
      .dockReceived 0 1 256 1, .dockReceived 0 1 1 256, .parkReceived 32 1 1 1, .parkReceived 0 1 1 256,
      .seekReceived 32 1 1, .seekReceived 0 256 1, .seekReceived 0 1 256, .statusReceived 32 ⟨1, 0, 0, 0, 0, [], []⟩,
      .statusReceived 0 ⟨256, 0, 0, 0, 0, [], []⟩, .statusReceived 0 ⟨1, 256, 0, 0, 0, [], []⟩,
      .statusReceived 0 ⟨1, 0, 256, 0, 0, [], []⟩, .statusReceived 0 ⟨1, 0, 0, 256, 0, [], []⟩,
      .statusReceived 0 ⟨1, 0, 0, 0, 256, [], []⟩, .statusReceived 0 ⟨1, 0, 0, 0, 0, [⟨256, 0, 0⟩], []⟩,
      .statusReceived 0 ⟨1, 0, 0, 0, 0, [], [⟨1, 1, 16⟩]⟩,
      .statusReceived 0 ⟨1, 0, 0, 0, 0, [], List.replicate 14 ⟨1, 1, 1⟩⟩, .peerSilenceTimerExpiry 32,
      .claimTimerExpiry 0, .claimTimerExpiry 49, .delayExpiry 0, .delayExpiry 65536] : List Instr).all
        (fun c => !c.wellFormed) = true := by decide +kernel

/-- And it takes terms at the ends of their ranges. -/
theorem test_wf_takes :
    ([.configure fields, .touchdown 255 255 (List.replicate 253 (15, 15)), .index 32767 true, .passEnd 255 (2 ^ 24 - 1),
      .holdReceived 31 4095 255 15, .claimTimerExpiry 48, .delayExpiry 65535,
      .statusReceived 31 ⟨4, 8, 48, 255, 3, List.replicate 4 ⟨1, 1, 1⟩, List.replicate 8 ⟨1, 1, 1⟩⟩] : List Instr).all
        Instr.wellFormed = true := by decide +kernel

/-! ## Frames (12.1 to 12.5). The CRCs were worked apart from the model by the rule of R209. -/

theorem test_frame_halt : testerFrame .halt = [0x04, 0x00, 0x18, 0x0E] := by decide +kernel

theorem test_frame_loaded : testerReceived [0x10, 0x02, 0x01, 0x23, 0xC6, 0xC3] = .loaded 0x123 := by
  decide +kernel

/-- One bit turned: the CRC fails. -/
theorem test_frame_corrupt : testerReceived [0x10, 0x02, 0x01, 0x22, 0xC6, 0xC3] = .testerBadMessage false := by
  decide +kernel

theorem test_frame_index : handlerReceived [0x26, 0x02, 0x80, 0x05, 0xF8, 0x14] = .index 5 true := by decide +kernel

/-- HOLD of program ABCH, reason 5, tag 7 from station 9. -/
theorem test_frame_hold :
    floorReceived [0x14, 0x83, 0xAB, 0xC5, 0x07, 0x88, 0x5E] = .holdReceived 9 0xABC 7 5 := by decide +kernel

theorem test_frame_collect : requestReceived [0x10, 0x00, 0x02, 0x01, 0x02, 0x25, 0xA4] = .collect 0x102 := by
  decide +kernel

theorem test_frame_withdraw :
    requestReceived [0x08, 0x00, 0x04, 0x00, 0x00, 0x01, 0x00, 0x57, 0x63] = .withdraw 256 := by decide +kernel

/-! ## Requests of the cell terminal -/

theorem test_configure_ok : leaves (.configure fields) bare (fun e =>
    answered ⟨1, .ok, []⟩ e && (e.ctp.config.map (·.windowSize)) == some 200) = true := by decide +kernel

/-- Field 34 (n_min, 20 to 1000) at 19. -/
theorem test_configure_field_34 : leaves (.configure (fields.set 33 ⟨0, 19⟩)) bare (fun e =>
    answered ⟨1, .badField, [34]⟩ e && e.ctp.config == none) = true := by decide +kernel

theorem test_join : leaves .join configured (fun e =>
    answered ⟨2, .ok, []⟩ e && e.fli.line == .listen && e.lines.testerOut == [.query] &&
    e.lines.handlerOut == [.query]) = true := by decide +kernel

theorem test_join_unconfigured : leaves .join bare (fun e =>
    answered ⟨2, .notReady, []⟩ e && e.ctp.device == .config) = true := by decide +kernel

theorem test_restart : leaves .restart joined (fun e =>
    answered ⟨3, .ok, []⟩ e && e.ctp.restartPending && e.ctp.hold == .running) = true := by decide +kernel

/-- Byte 0 the device state, byte 5 the line state OFF. -/
theorem test_status_request : leaves .statusRequest bare (fun e => e.lines.terminalOut.any fun r =>
    r.code == .ok && r.payload[0]? == some 1 && r.payload[5]? == some 1) = true := by decide +kernel

/-- READ of LOTS 0: state RUNNING first, then the marks, the lot ID from byte 5 on; the unseen mark is cleared. -/
theorem test_read_lots : leaves (.read 1 0 0 1) (testingWith fun l => { l with unseen := true }) (fun e =>
    lotHas 0 (fun l => !l.unseen) e && e.lines.terminalOut.any fun r => r.payload.length == 62 &&
      r.payload[0]? == some 3 && (r.payload.drop 5).take 4 == [0, 0, 0, 11]) = true := by decide +kernel

theorem test_read_range : leaves (.read 4 0 48 2) joined (answered ⟨5, .range, []⟩) = true := by decide +kernel

theorem test_retry : leaves .retry
    { joined with tpt := { joined.tpt with loadBlocked := some 258 } } (fun e =>
      e.tpt.loadBlocked == none && answered ⟨6, .ok, [1, 0, 0, 1, 2, 0, 0, 0, 0, 0, 0, 0, 0, 0, 0]⟩ e) = true := by
  decide +kernel

def plan1 : List PlanField := [⟨100, 1, 1⟩, ⟨0, 0, 0⟩, ⟨0, 0, 0⟩, ⟨0, 0, 0⟩]

/-- Slot 0, answered QUEUED; staging selection then takes it. -/
theorem test_admit : leaves (.admitLot 20 7 9 1 500 1 plan1) joined (fun e =>
    answered ⟨7, .ok, [0, 1]⟩ e && lotHas 0 (fun l => l.id == 20 && l.seq == 1 && l.state == .staging) e) = true := by
  decide +kernel

theorem test_admit_kit : leaves (.admitLot 20 7 0 1 500 1 plan1) joined (fun e =>
    answered ⟨7, .badField, [3]⟩ e && lotAt e 0 == none) = true := by decide +kernel

theorem test_withdraw : leaves (.withdraw 12) testing (fun e =>
    answered ⟨8, .ok, []⟩ e && lotAt e 1 == none) = true := by decide +kernel

theorem test_withdraw_open : leaves (.withdraw 11) testing (fun e =>
    answered ⟨8, .badState, []⟩ e && lotHas 0 (fun l => l.id == 11) e) = true := by decide +kernel

/-- Lot 11 HELD by an operator hold with note 4, resume step RUNNING. -/
def heldLot11 : Lot :=
  { runningLot with
    state := .held, resume := some .running, unseen := true, holds := [⟨.operator 4, 1, 50, 1, false⟩] }

def heldCell : Device := testingWith fun _ => heldLot11

/-- R11: tester and handler are as the pass needs, so the lot continues in RUNNING. -/
theorem test_dispose_resume : leaves (.dispose 11 7 8 4 0 1) heldCell (fun e =>
    answered ⟨9, .ok, []⟩ e && lotHas 0 (fun l => l.state == .running && l.holds == []) e && e.pins.feed) = true := by
  decide +kernel

theorem test_dispose_scrap : leaves (.dispose 11 7 8 4 0 3) heldCell (fun e =>
    answered ⟨9, .ok, []⟩ e && lotAt e 0 == none && e.lines.testerOut.contains .halt) = true := by decide +kernel

theorem test_place_hold : leaves (.placeHold 11 4) testing (fun e =>
    answered ⟨10, .ok, [1]⟩ e && !e.pins.feed && lotHas 0 (fun l =>
      l.state == .held && l.resume == some .running && l.holds == [⟨.operator 4, 1, 50, 1, false⟩]) e) = true := by
  decide +kernel

theorem test_place_hold_repeat : leaves (.placeHold 11 4) heldCell (fun e =>
    answered ⟨10, .ok, [2]⟩ e && lotHas 0 (fun l => l.holds.map (·.repeats) == [2]) e) = true := by decide +kernel

theorem test_place_floor_hold : leaves (.placeFloorHold 100 3) testing (fun e =>
    answered ⟨11, .ok, [1]⟩ e && e.hdu.table == [⟨100, 3, 1, 3, false⟩] &&
    e.fli.queue.any (fun q => q.bulletin == .hold 100 1 3) &&
    lotHas 1 (fun l => l.state == .held && l.holds.any (fun h => h.key == .remote 3 1)) e) = true := by decide +kernel

/-- Two floor holds: an own one on program 200 with tag 6, a stale one of station 9 on program 300. -/
def flooredCell : Device :=
  { joined with hdu := { joined.hdu with
      ownTag := 6, table := [⟨200, 3, 6, 4, false⟩, ⟨300, 9, 2, 5, true⟩] } }

theorem test_lift_floor : leaves (.liftFloor 6) flooredCell (fun e =>
    answered ⟨12, .ok, []⟩ e && e.hdu.table.map (·.origin) == [9] && e.hdu.liftsInPlay == [6] &&
    e.fli.queue.any (fun q => q.bulletin == .lift 200 6)) = true := by decide +kernel

theorem test_override_stale : leaves (.override 9 2) flooredCell (fun e =>
    answered ⟨18, .ok, []⟩ e && e.hdu.table.map (·.origin) == [3] && e.fli.queue == []) = true := by decide +kernel

theorem test_override_active : leaves (.override 3 6) flooredCell (answered ⟨18, .badState, []⟩) = true := by
  decide +kernel

theorem test_clear_sticky : leaves (.clearSticky 11)
    (testingWith fun l => { l with sticky := { l.sticky with stray := true }, marks := { l.marks with stray := true } })
    (fun e => answered ⟨13, .ok, []⟩ e && lotHas 0 (fun l => !l.sticky.stray && l.marks.stray) e) = true := by
  decide +kernel

/-- A NOTE in the TESTER bank: severity 1, code RESULT_UNARMED 2, reference 255, time 50. -/
theorem test_clear_fault : leaves (.clearFault 3) (raise .tester .note .resultUnarmed 255 joined) (fun e =>
    answered ⟨14, .ok, [1, 1, 2, 255, 0, 50]⟩ e && e.ctp.testerBank == ⟨none, false⟩) = true := by decide +kernel

theorem test_set_grade : leaves (.setGrade 5)
    { testing with tpm := { testing.tpm with grade := some .c, degrade := 1 } } (fun e =>
      answered ⟨15, .ok, []⟩ e && e.tpm.grade == some .a && e.tpm.degrade == 0 &&
      (entryAt e 5).grade == some .a) = true := by decide +kernel

/-- A release record: 1000 units, 940 good, 40 reject, 20 missing. -/
def record (n : Nat) (state : ReleaseState) (cause : Option RecallCause) : Release :=
  { number := n, lotId := 900 + n, product := 7, kit := 9, programs := [100], completed := 1, qFirst := 1000
    qLast := 1000, good := 940, reject := 40, missing := 20, excess := 0, attrition := 0, finalYield := 9400
    runTime := 60, holdCount := 0, marks := .clear, state, cause
    timer := if state = .delayed then some 1800000 else none }

def releasing : Device :=
  { joined with rlu := ⟨[record 1 .ready none, record 2 .delayed none, record 3 .recalled (some .untracked),
      record 4 .recalled (some (.entry 9 2))], 4⟩ }

theorem test_collect : leaves (.collect 1) releasing (fun e =>
    e.rlu.records.map (·.number) == [2, 3, 4] && e.lines.terminalOut.any fun r =>
      r.code == .ok && r.payload.length == 52 && r.payload.take 4 == [0, 1, 2, 0]) = true := by decide +kernel

/-- R210, R211: an absent cause origin is 255 in a READ record; in COLLECT the last three bytes are 0. -/
theorem test_release_cause :
    (releaseRecord (recordNumbered releasing 1)).drop 49 = [0, 255, 0] ∧
    (releaseRecord (recordNumbered releasing 3)).drop 49 = [2, 255, 0] ∧
    (releaseRecord (recordNumbered releasing 4)).drop 49 = [1, 9, 2] ∧
    (collectBytes (record 4 .recalled (some (.entry 9 2)))).drop 49 = [0, 0, 0] := by decide +kernel

theorem test_collect_delayed : leaves (.collect 2) releasing (answered ⟨16, .badState, [1]⟩) = true := by
  decide +kernel

/-- RESUME of an UNTRACKED recall with no cover: DELAYED for the full 30 minutes. -/
theorem test_dispose_release : leaves (.disposeRelease 3 1) releasing (fun e =>
    answered ⟨17, .ok, []⟩ e && e.rlu.records.any fun r =>
      r.number == 3 && r.state == .delayed && r.timer == some 1800000 && r.cause == none) = true := by decide +kernel

theorem test_bad_frame : leaves (.badFrame false 9) joined (fun e =>
    answered ⟨0, .badFrame, []⟩ e && e.ctp.frameErrors == 1) = true := by decide +kernel

theorem test_frame_discarded : leaves .requestFrameDiscarded
    { joined with ctp := { joined.ctp with frameErrors := 65535 } } (fun e =>
      e.ctp.frameErrors == 65535 && e.lines.terminalOut == []) = true := by decide +kernel

/-! ## The tester -/

/-- Lot 12 in STAGING with its load in flight. -/
def loading : Device :=
  { withLot 0 { queuedLot 12 1 with state := .staging } joined with
    tpt := { Tpt.reset with link := .up, load := some ⟨100, 12, 120000⟩, target := some 12, query := none } }

theorem test_loaded : leaves (.loaded 100) loading (fun e =>
    e.tpt.loaded == 100 && e.tpt.load == none && e.tpt.loadBlocked == none) = true := by decide +kernel

theorem test_loaded_mismatch : leaves (.loaded 101) loading (fun e =>
    e.tpt.loaded == 101 && e.tpt.loadBlocked == some 12 && holdsFault .tester .corrected .loadMismatch 0 e) = true := by
  decide +kernel

theorem test_load_fail : leaves (.loadFail 9) loading (fun e =>
    e.tpt.load == none && e.tpt.loaded == 0 && holdsFault .tester .corrected .loadFail 0 e) = true := by decide +kernel

theorem test_load_timer : leaves .loadTimerExpiry loading (fun e =>
    e.tpt.load == none && e.tpt.loadBlocked == some 12 && holdsFault .tester .corrected .loadTimeout 0 e) = true := by
  decide +kernel

/-- The restore has sent ARM; site 2 has become DISABLING since. -/
def armSent : Device :=
  { testing with tpt := { testing.tpt with
      arm := { testing.tpt.arm with state := .sent }, mask := testing.tpt.mask.set 2 .disabling } }

theorem test_armed : leaves .armed armSent (fun e =>
    e.tpt.arm.state == .armed && e.pins.feed && e.lines.testerOut.getLast? == some (.mask 0xFB) &&
    e.tpt.outstanding == [4]) = true := by decide +kernel

theorem test_arm_fail : leaves (.armFail 1) armSent (fun e =>
    e.tpt.arm.state == .unarmed && e.tpt.armRefused == some 11 &&
    holdsFault .tester .corrected .armFail 0 e) = true := by decide +kernel

/-- Two repeats of (site 0, bin 1) and (site 3, bin 2): T1 4, FIRST[1] 2, FIRST[2] 2, and bin 2 is owed a retest. -/
theorem test_touchdown : leaves (.touchdown 2 2 [(0, 1), (3, 2)]) testing (fun e =>
    e.hpt.intake == 7 && e.tpm.results == 4 && lotHas 0 (fun l => l.acc.t1 == 4 && l.acc.first[1] == 2 &&
      l.acc.final[1] == 2 && l.acc.pendingNext == 2 && l.stats.winPass == 2 && l.stats.winResults == 4) e) = true := by
  decide +kernel

/-- R34: a repeat count of 17 refuses the whole. -/
theorem test_touchdown_refused : leaves (.touchdown 17 1 [(0, 1)]) testing (fun e =>
    lotAt e 0 == some runningLot && holdsFault .tester .note .badMessage 255 e) = true := by decide +kernel

theorem test_mask_ok : leaves .maskOk
    { testing with tpt := { testing.tpt with mask := testing.tpt.mask.set 2 .disabling, outstanding := [4, 8] } }
    (fun e => e.tpt.mask[2] == .disabled && e.tpt.outstanding == [8]) = true := by decide +kernel

/-- A drain: FINAL[1] 980 and FINAL[3] 20 of 1000. -/
def drainedLot : Lot :=
  { runningLot with
    state := .closing, step := some .drain
    acc := { Accum.zero with
      first := (Accum.zero.first.set 1 980).set 3 20, final := (Accum.zero.final.set 1 980).set 3 20, t1 := 1000 } }

def draining : Device :=
  refreshPins { withLot 0 drainedLot testing with tpt := { testing.tpt with drain := some 5000 } }

/-- The one insertion closes with good 980 and the lot leaves for the release queue; lot 12 is staged, and as the
cell is ready for it its insertion starts at once (R7, R12). -/
theorem test_idle : leaves .idle draining (fun e =>
    e.tpt.drain == none && e.tpt.arm == ⟨.sent, 12, 1, 100, 0xFF⟩ && lotAt e 0 == none &&
    lotHas 1 (fun l => l.state == .staging && l.opened) e && e.rlu.records.any fun r =>
      r.good == 980 && r.reject == 20 && r.missing == 0 && r.finalYield == 9800 && r.state == .delayed) = true := by
  decide +kernel

theorem test_drain_timer : leaves .drainTimerExpiry draining (fun e =>
    e.rlu.counter == 1 && lotAt e 0 == none) = true := by decide +kernel

theorem test_down : leaves .down testing (fun e =>
    e.tpt.link == .down && e.tpt.loaded == 0 && !e.pins.feed && e.pins.attn &&
    holdsFault .tester .uncorrected .testerDown 0 e) = true := by decide +kernel

theorem test_up : leaves (.up 100) { testing with tpt := { Tpt.reset with query := some 10 } } (fun e =>
    e.tpt.link == .up && e.tpt.loaded == 100 && e.tpt.silence == some 5000 && e.tpt.arm.state == .sent) = true := by
  decide +kernel

theorem test_tester_bad_message : leaves (.testerBadMessage false)
    { testing with tpt := { testing.tpt with silence := some 70 } } (fun e =>
      e.tpt.silence == some 70 && holdsFault .tester .note .badMessage 255 e) = true := by decide +kernel

theorem test_silence_timer : leaves .silenceTimerExpiry testing (fun e =>
    e.tpt.link == .silent && e.tpt.silence == none && holdsFault .tester .uncorrected .testerDown 0 e) = true := by
  decide +kernel

theorem test_tester_query : leaves .testerQueryTimer testing (fun e =>
    e.lines.testerOut == [.query] && e.tpt.query == some 1000) = true := by decide +kernel

/-! ## The handler -/

theorem test_hello : leaves (.hello 48 9) joined (fun e =>
    e.hpt.presence == .present && e.hpt.handler == some 48 && (entryAt e 48).state == .docked &&
    e.tpm.grade == some .a && e.fli.queue.any fun q => q.bulletin == .dock 48 9 (some .a)) = true := by decide +kernel

theorem test_hello_range : leaves (.hello 49 9) joined (fun e =>
    e.hpt.presence == .empty && holdsFault .handler .note .badMessage 49 e) = true := by decide +kernel

theorem test_state : leaves (.state 2) testing (fun e =>
    !e.pins.feed && (e.hpt.soak.any fun k => k.cls == .room && k.lot == 11)) = true := by decide +kernel

/-- A soak to ROOM in flight for lot 11. -/
def soaking : Device :=
  refreshPins { testing with hpt := { testing.hpt with soaked := none, soak := some ⟨.room, 11, 60000⟩ } }

theorem test_soaked : leaves (.soaked 1) soaking (fun e =>
    e.hpt.soaked == some .room && e.hpt.soak == none && e.pins.feed) = true := by decide +kernel

theorem test_soak_fail : leaves (.soakFail 3) soaking (fun e =>
    e.hpt.soak == none && e.hpt.soakBlocked == some 11 && holdsFault .handler .corrected .soakFail 5 e) = true := by
  decide +kernel

theorem test_soak_timer : leaves .soakTimerExpiry soaking (fun e =>
    e.hpt.soak == none && holdsFault .handler .corrected .soakFail 5 e) = true := by decide +kernel

/-- A kit change to kit 8 in flight with no lot in the table. -/
def kitting : Device :=
  { setEntry 5 ⟨.docked, some 3, 9, some .a, none, none, none⟩ joined with
    hpt := { testing.hpt with kit := 0, kitChange := some ⟨8, 600000⟩, soaked := none }
    tpm := testing.tpm }

theorem test_kit_done : leaves (.kitDone 8) kitting (fun e =>
    e.hpt.kit == 8 && e.hpt.kitChange == none && (entryAt e 5).kit == 8 &&
    e.fli.queue.any fun q => q.bulletin == .dock 5 8 (some .a)) = true := by decide +kernel

theorem test_kit_done_other : leaves (.kitDone 7) kitting (fun e =>
    e.hpt.kit == 7 && holdsFault .handler .corrected .kitMismatch 5 e) = true := by decide +kernel

theorem test_kit_fail : leaves (.kitFail 1) kitting (fun e =>
    e.hpt.kit == 0 && e.hpt.kitChange == none && holdsFault .handler .corrected .kitFail 5 e) = true := by decide +kernel

theorem test_kit_timer : leaves .kitChangeTimerExpiry kitting (fun e =>
    e.hpt.kitChange == none && holdsFault .handler .corrected .kitTimeout 5 e) = true := by decide +kernel

/-- Jam threshold 10 units of 100 ms: an interval of 600 and 400 ms is a jam. -/
def timing : Device := { testing with hpt := { testing.hpt with capAcc := 600, capSpoiled := false, capFirst := false } }

theorem test_index_jam : leaves (.index 400 false) timing (fun e =>
    e.tpm.jams == 1 && e.hpt.capAcc == 0 && !e.hpt.capSpoiled) = true := by decide +kernel

theorem test_index_continued : leaves (.index 400 true) timing (fun e =>
    e.tpm.jams == 0 && e.hpt.capAcc == 1000) = true := by decide +kernel

theorem test_unit_lost : leaves (.unitLost 7) testing (fun e =>
    e.hpt.intake == 4 && lotHas 0 (fun l => l.acc.t1 == 1 && l.acc.final[0] == 1 && l.stats.winResults == 0) e) = true := by
  decide +kernel

/-- One unit is owed and the limit is 1: RETEST 1 with START_PASS(1, 1). -/
theorem test_pass_end : leaves (.passEnd 0 3)
    (testingWith fun l => { l with acc := { l.acc with pendingNext := 1, t1 := 1, first := l.acc.first.set 2 1 } })
    (fun e => e.lines.handlerOut == [.startPass 1 1] && e.hpt.intake == 0 && lotHas 0 (fun l =>
      l.state == .retest && l.step == some (.pass 1) && l.fedCounts == [(0, 3)] && l.acc.countingPass == 1) e) = true := by
  decide +kernel

/-- Nothing is owed: CLOSING with HALT, and a fed count other than the intake is noted. -/
theorem test_pass_end_drain : leaves (.passEnd 0 4) testing (fun e =>
    e.lines.testerOut == [.halt] && e.tpt.drain == some 5000 && lotHas 0 (fun l => l.state == .closing) e &&
    holdsFault .accounting .note .fedMismatch 0 e) = true := by decide +kernel

/-- A HELD lot's step becomes DRAIN whatever its resume step: HALT, the 5 s timer, resume step CLOSING (R37). -/
theorem test_pass_end_held_staging : leaves (.passEnd 0 3)
    (testingWith fun _ => { heldLot11 with resume := some .staging }) (fun e =>
      e.tpt.drain == some 5000 && e.lines.testerOut.getLast? == some .halt &&
      lotHas 0 (fun l => l.state == .held && l.resume == some .closing && l.step == some .drain) e) = true := by
  decide +kernel

theorem test_bye : leaves .bye testing (fun e =>
    e.hpt.presence == .absent && e.hpt.handler == some 5 && !e.pins.feed &&
    holdsFault .handler .uncorrected .handlerAbsent 5 e) = true := by decide +kernel

theorem test_absence_timer : leaves .absenceTimerExpiry kitting (fun e =>
    e.hpt.presence == .absent && e.hpt.kitChange == none && holdsFault .handler .note .handlerAbsent 5 e) = true := by
  decide +kernel

/-- Handler 5 has been ordered to leave. -/
def leaving : Device :=
  { joined with
    hpt := { Hpt.reset with presence := .leaving, handler := some 5, kit := 9, leaving := some 3000 }
    tpm := { Tpm.reset with grade := some .b } }

theorem test_leaving_timer : leaves .leavingTimerExpiry leaving (fun e =>
    e.hpt.presence == .empty && e.hpt.handler == none && e.tpm.grade == none) = true := by decide +kernel

theorem test_handler_bad_message : leaves (.handlerBadMessage true (some 77)) leaving (fun e =>
    holdsFault .handler .note .badMessage 77 e && e.hpt.presence == .leaving) = true := by decide +kernel

theorem test_handler_query : leaves .handlerQueryTimer
    { kitting with hpt := { kitting.hpt with presence := .absent, kitChange := none, query := some 0 } } (fun e =>
      e.lines.handlerOut == [.query] && e.hpt.query == some 1000) = true := by decide +kernel

theorem test_ready : leaves (.readyChange false) testing (fun e =>
    e.pins.feed && !e.hpt.effRun && e.hpt.capSpoiled) = true := by decide +kernel

/-! ## Samples -/

/-- 15 s period, 10 s of gate-on time, 2 results: 720 units an hour, under 1000, the third in a row. -/
theorem test_period_end : leaves .periodEnd
    { testing with tpm := { testing.tpm with gateOn := 10000, results := 2, degrade := 2 } } (fun e =>
      e.tpm.grade == some .b && e.tpm.degrade == 0 && e.tpm.last.uph == some 720 && e.tpm.last.outcome == .degraded &&
      (entryAt e 5).grade == some .b && e.tpm.period == some 0) = true := by decide +kernel

/-- Gate-on time below half the period: skipped. -/
theorem test_period_end_skipped : leaves .periodEnd
    { testing with tpm := { testing.tpm with gateOn := 7499, degrade := 2 } } (fun e =>
      e.tpm.degrade == 2 && e.tpm.last.outcome == .skipped) = true := by decide +kernel

theorem test_run_time : leaves (.runTimeSecond 1300) { testing with tpm := { testing.tpm with carry := 800 } } (fun e =>
    e.tpm.carry == 100 && e.tpm.gateOn == 1300 && lotHas 0 (fun l => l.runTime == 2) e) = true := by decide +kernel

/-- Past the period's 15 s no millisecond counts. -/
theorem test_run_time_period_end : leaves (.runTimeSecond 1300)
    { testing with tpm := { testing.tpm with period := some 14990, gateOn := 14000 } } (fun e =>
      e.tpm.period == some 15000 && e.tpm.gateOn == 14010 && e.tpm.carry == 10) = true := by decide +kernel

/-! ## The floor line -/

theorem test_hold_received : leaves (.holdReceived 31 100 9 1) testing (fun e =>
    e.hdu.table == [⟨100, 31, 9, 1, false⟩] && e.fli.peers[31] == ⟨.heard, some 8000⟩ &&
    lotHas 0 (fun l => l.state == .held && l.holds.map (·.key) == [.remote 31 9]) e) = true := by decide +kernel

theorem test_lift_received : leaves (.liftReceived 9 300 2 0) flooredCell (fun e =>
    e.hdu.table.map (·.origin) == [3] && e.fli.peers[9].state == .heard) = true := by decide +kernel

/-- Class 2 of station 4 against class 2 of station 6: the lower station is the stronger. -/
theorem test_claim_received : leaves (.claimReceived 4 10 9 2)
    (setEntry 10 ⟨.claimed, some 6, 9, none, some 2, none, some 5⟩ joined) (fun e =>
      entryAt e 10 == ⟨.claimed, some 4, 9, none, some 2, none, some 1200000⟩) = true := by decide +kernel

theorem test_dock_received : leaves (.dockReceived 4 10 9 2) joined (fun e =>
    entryAt e 10 == ⟨.docked, some 4, 9, some .b, none, none, none⟩) = true := by decide +kernel

theorem test_park_received : leaves (.parkReceived 4 48 9 3) joined (fun e =>
    entryAt e 48 == ⟨.free, none, 9, some .c, none, some 4, none⟩) = true := by decide +kernel

/-- Handler 5 with kit 9 is idle: it is parked for the seeker. -/
def idleDock : Device :=
  { joined with
    hpt := { testing.hpt with pass := none, passHandler := none }, tpm := testing.tpm
    asu := { joined.asu with idleTimer := some 1800000 } }

/-- R153: the idle timer of a handler that replaces an idle one starts at its dock. -/
theorem test_hello_restarts_idle : leaves (.hello 6 9)
    { idleDock with asu := { idleDock.asu with idleTimer := some 7 } } (fun e =>
      e.hpt.handler == some 6 && e.asu.idleTimer == some (minutes (cfg e).idleRelease)) = true := by decide +kernel

/-- R150: a STATUS parked-list entry for the target of a need in WON changes kit, grade and parked-by alone. -/
theorem test_status_parked_target : leaves (.statusReceived 4 ⟨1, 0, 0, 0, 0, [⟨10, 9, 2⟩], []⟩)
    (setEntry 10 ⟨.claimed, some 3, 8, some .a, some 1, some 6, none⟩ { joined with asu := { joined.asu with
      need := { Need.idle with state := .won, target := some 10, kit := 9, cls := some 1, dockWaitTimer := some 9 } } })
    (fun e => (entryAt e 10).parkedBy == some 4 && (entryAt e 10).kit == 9) = true := by decide +kernel

theorem test_seek_received : leaves (.seekReceived 4 9 1) idleDock (fun e =>
    e.hpt.presence == .leaving && e.asu.parked == [5] && e.lines.handlerOut == [.undock] &&
    e.fli.queue.any fun q => q.bulletin == .park 5 9 (some .a)) = true := by decide +kernel

/-- A STATUS with handler 10 docked, handler 11 parked and one floor hold; what it leaves out is gone. -/
theorem test_status_received : leaves
    (.statusReceived 9 ⟨1, 0, 10, 8, 1, [⟨11, 8, 2⟩], [⟨400, 7, 6⟩]⟩) flooredCell (fun e =>
      (entryAt e 10).state == .docked && (entryAt e 11).state == .free &&
      e.hdu.table.map (fun x => (x.origin, x.tag)) == [(3, 6), (9, 7)]) = true := by decide +kernel

theorem test_duplicate_station : leaves .duplicateStation joined (fun e =>
    e.fli.line == .barred && e.fli.statusTimer == none &&
    holdsFault .floor .uncorrected .duplicateStation 3 e) = true := by decide +kernel

theorem test_floor_dropped : leaves .floorFrameDropped joined (fun e => e.fli.rxErrors == 1) = true := by decide +kernel

theorem test_line_busy : leaves .lineBusy joined (fun e => e.fli.busy) = true := by decide +kernel

/-- A SEEK and a STATUS wait. -/
def sending : Device :=
  { joined with fli := { joined.fli with queue := [⟨.seek 9 1, 4⟩, ⟨.status, 2⟩], nextAge := 5 } }

theorem test_attempt_begin : leaves .attemptBegin sending (fun e =>
    e.fli.slot == some ⟨.seek 9 1, 4, none, false⟩ && e.fli.queue == [⟨.status, 2⟩] && e.fli.busy) = true := by
  decide +kernel

theorem test_attempt_busy : leaves .attemptBegin { sending with fli := { sending.fli with busy := true } } (fun e =>
    e.fli.slot == none) = true := by decide +kernel

/-- The SEEK is in the slot, the score stands at 60. -/
def attempting : Device :=
  { joined with fli := { joined.fli with
      queue := [⟨.status, 2⟩], nextAge := 5, slot := some ⟨.seek 9 1, 4, none, false⟩, score := 60, busy := true } }

theorem test_arbitration_lost : leaves .arbitrationLost attempting (fun e =>
    e.fli.queue == [⟨.seek 9 1, 4⟩, ⟨.status, 2⟩] && e.fli.slot == none && e.fli.score == 60) = true := by decide +kernel

theorem test_bulletin_sent : leaves .bulletinSent attempting (fun e =>
    e.fli.slot == none && e.fli.score == 59 && e.lines.floorOut == [⟨.seek 9 1, none⟩] && !e.fli.busy) = true := by
  decide +kernel

/-- 60 + 8 reaches 64: QUIET for 10 s. -/
theorem test_transmit_error : leaves .transmitError attempting (fun e =>
    e.fli.score == 68 && e.fli.line == .quiet && e.fli.quietTimer == some 10000 &&
    holdsFault .floor .note .lineQuiet 3 e && e.fli.queue.length == 2) = true := by decide +kernel

theorem test_status_period : leaves .statusPeriodTimerExpiry { joined with fli := { joined.fli with line := .listen } }
    (fun e => e.fli.line == .active && e.fli.queue.map (·.bulletin) == [.status] &&
      e.fli.statusTimer == some 2000) = true := by decide +kernel

theorem test_quiet_timer : leaves .quietTimerExpiry
    { joined with fli := { joined.fli with line := .quiet, quietTimer := some 0, score := 70 } } (fun e =>
      e.fli.line == .active && e.fli.score == 32) = true := by decide +kernel

/-- Station 9 falls silent: its docked handler is UNKNOWN and its floor hold STALE. -/
theorem test_peer_silence : leaves (.peerSilenceTimerExpiry 9)
    (setEntry 10 ⟨.docked, some 9, 8, some .a, none, none, none⟩
      { joined with
        fli := { joined.fli with peers := joined.fli.peers.set 9 ⟨.heard, some 0⟩ }
        hdu := { joined.hdu with table := [⟨300, 9, 2, 5, false⟩] } }) (fun e =>
      (entryAt e 10).state == .unknown && (entryAt e 10).grade == some .a && e.hdu.table.all (·.stale) &&
      e.fli.peers[9] == ⟨.silent, none⟩ && holdsFault .floor .note .peerSilent 9 e) = true := by decide +kernel

/-! ## Handler assignment, release, resets -/

theorem test_claim_timer : leaves (.claimTimerExpiry 10)
    (setEntry 10 ⟨.claimed, some 6, 9, none, some 2, some 6, some 0⟩ joined) (fun e =>
      entryAt e 10 == ⟨.free, none, 9, none, none, some 6, none⟩) = true := by decide +kernel

/-- Lot 12 in STAGING needs kit 9 and nothing is docked. -/
def needing (n : Need) : Device :=
  { withLot 0 { queuedLot 12 1 with state := .staging } joined with
    asu := { joined.asu with need := { n with kit := 9, cls := some 1 }, staging := some 12 } }

theorem test_seek_repeat : leaves .seekRepeatTimerExpiry
    (needing { Need.idle with state := .seeking, seekTimer := some 0 }) (fun e =>
      e.fli.queue.map (·.bulletin) == [.seek 9 1] && e.asu.need.seekTimer == some 60000) = true := by decide +kernel

theorem test_claim_window : leaves .claimWindowExpiry
    (needing { Need.idle with state := .claiming, target := some 10, claimSent := true, windowTimer := some 0 }) (fun e =>
      e.asu.need.state == .won && e.asu.need.dockWaitTimer == some 1200000) = true := by decide +kernel

theorem test_dock_wait : leaves .dockWaitExpiry
    (needing { Need.idle with state := .won, target := some 10, dockWaitTimer := some 0 }) (fun e =>
      e.asu.need.state == .seeking && e.asu.need.passedOver == some 10 && (entryAt e 10).parkedBy == some 3 &&
      holdsFault .floor .note .dockWaitExpired 10 e) = true := by decide +kernel

theorem test_idle_timer : leaves .idleTimerExpiry idleDock (fun e =>
    e.hpt.presence == .leaving && (entryAt e 5).state == .free && (entryAt e 5).parkedBy == some 3) = true := by
  decide +kernel

theorem test_delay : leaves (.delayExpiry 2) releasing (fun e =>
    e.rlu.records.map (·.state) == [.ready, .ready, .recalled, .recalled] && e.pins.attn) = true := by decide +kernel

theorem test_power_on_reset : leaves (.powerOnReset true) testing (fun e =>
    e.ctp.hold == .powerOn && e.pins.resetPin == .low && !e.pins.feed && lotAt e 0 == none) = true := by decide +kernel

theorem test_power_on_reset_end : leaves (.powerOnResetEnd 21)
    { bare with ctp := { bare.ctp with hold := .powerOn } } (fun e =>
      e.ctp.hold == .running && e.ctp.device == .config && e.fli.station == 21) = true := by decide +kernel

theorem test_warm_reset : leaves (.warmReset (some 0)) testing (fun e =>
    e.ctp.hold == .warm && e.ctp.device == .joined && !e.pins.feed && e.tpt.link == .unknown &&
    lotHas 0 (fun l => l.state == .held && l.resume == some .staging && l.holds.map (·.key) == [.restart]) e &&
    lotHas 1 (fun l => l.state == .queued) e) = true := by decide +kernel

/-- RESET moves from low to middle while a power-on reset is held: the straps are read then (R212). -/
theorem test_warm_reset_from_low : leaves (.warmReset (some 21))
    { bare with ctp := { bare.ctp with hold := .powerOn } } (fun e =>
      e.ctp.hold == .warm && e.ctp.device == .config && e.fli.station == 21 && e.pins.resetPin == .middle) = true := by
  decide +kernel

theorem test_warm_reset_end : leaves .warmResetEnd
    { testing with ctp := { testing.ctp with hold := .warm, waiting := [.statusRequest] }, fli := Fli.reset 3 } (fun e =>
      e.ctp.hold == .running && e.fli.line == .listen && e.lines.terminalOut.length == 1 &&
      e.lines.handlerOut.contains .query) = true := by decide +kernel

theorem test_join_clock : leaves .joinClockMinute { joined with ctp := { joined.ctp with joinClock := 65535 } } (fun e =>
    e.ctp.joinClock == 65535) = true := by decide +kernel

/-- A command that waits is taken first in, first out; an empty queue is one millisecond of the timers (log 2). -/
theorem test_queue : (match step ⟨[.lineBusy, .join], joined⟩ with
    | .next t => t.pending == [.join] && t.dev.fli.busy | _ => false) = true := by decide +kernel

theorem test_tick : (match step (st joined) with
    | .next t => t.dev.fli.statusTimer == some 1999 | _ => false) = true := by decide +kernel

/-- With effective run on, the empty step's millisecond is gate-on time as well (R102). -/
theorem test_tick_gate_on : (match step (st testing) with
    | .next t => t.dev.tpm.period == some 1 && t.dev.tpm.gateOn == 1 && t.dev.tpm.carry == 1 | _ => false) = true := by
  decide +kernel

/-! ## Witnesses: states and operands that meet the hypotheses of each obligation, clause by clause -/

theorem serving_joined : Serving joined := ⟨⟨rfl, rfl⟩, rfl⟩
theorem serving_testing : Serving testing := by unfold Serving Served; decide +kernel
theorem served_bare : Served bare := ⟨rfl, rfl⟩
theorem served_configured : Served configured := ⟨rfl, rfl⟩

theorem witness_StepTakesTheFrontCommand : step ⟨[.join, .retry], bare⟩ = exec .join ⟨[.retry], bare⟩ := rfl

theorem witness_TimersTickAndExpireOnlyWhileRunning :
    live bare = false ∧ live joined = true ∧ bare.tpt.silence = none ∧ bare.tpt.load = none ∧ bare.tpt.drain = none ∧
    bare.hpt.absence = none ∧ bare.hpt.leaving = none ∧ bare.hpt.soak = none ∧ bare.hpt.kitChange = none ∧
    bare.tpm.period = none ∧ bare.fli.statusTimer = none ∧ bare.fli.quietTimer = none ∧
    bare.asu.need.seekTimer = none ∧ bare.asu.need.windowTimer = none ∧ bare.asu.need.dockWaitTimer = none ∧
    bare.asu.idleTimer = none := by decide +kernel

/-- The power-on reset held. -/
def heldReset : Device := { bare with ctp := { bare.ctp with hold := .powerOn } }

theorem witness_PowerOnResetAndItsEnd :
    heldReset.ctp.hold = .powerOn ∧ (st bare).pending = [] ∧ bare.lines = Lines.none ∧ bare.pins.ready = false ∧
    ∃ t, exec (.powerOnReset true) (st bare) = .next t := ⟨rfl, rfl, rfl, rfl, _, rfl⟩

theorem witness_PowerOnResetEmptiesTheLotTable :
    bare.ctp.device = .config ∧ configured.ctp.device = .config ∧ bare.ctp.config = none := by decide +kernel

/-- Five and six entries in the hold set; none is RESTART. -/
def heldBy (n : Nat) : Device :=
  testingWith fun _ => { heldLot11 with holds := (List.range n).map fun k => ⟨.operator k, 1, 50, 1, false⟩ }

/-- By the pin and by RESTART; a lot open with room for its entry, one staging, one queued. -/
theorem witness_WarmResetBlockByBlock :
    (testing.ctp.hold = .running ∧ testing.ctp.device = .joined ∧ lotAt testing 0 = some runningLot ∧
      runningLot.opened = true ∧ runningLot.state ≠ .held) ∧
    (∃ l, lotAt (heldBy 5) 0 = some l ∧ l.opened = true ∧ l.holds.all (fun e => e.key != .restart) = true ∧
      l.holds.length < 6) ∧
    (∃ d : Device, d = { joined with ctp := { joined.ctp with restartPending := true } } ∧
      d.ctp.hold = .running ∧ d.ctp.device = .joined ∧ d.ctp.restartPending = true) ∧
    (∃ l, lotAt loading 0 = some l ∧ l.opened = false ∧ l.state = .staging) ∧
    (∃ l, lotAt testing 1 = some l ∧ l.opened = false ∧ l.state ≠ .staging) := by
  refine ⟨by decide +kernel, ⟨_, rfl, ?_⟩, ⟨_, rfl, ?_⟩, ⟨_, rfl, ?_⟩, ⟨_, rfl, ?_⟩⟩ <;> decide +kernel

theorem witness_WarmResetEndAndJoinClock : ∃ d e : Device,
    d = { testing with ctp := { testing.ctp with hold := .warm } } ∧
    e = { bare with ctp := { bare.ctp with hold := .warm } } ∧
    d.ctp.hold = .warm ∧ d.ctp.waiting = [] ∧ d.ctp.device = .joined ∧ e.ctp.hold = .warm ∧ e.ctp.waiting = [] ∧
    e.ctp.device = .config ∧ joined.ctp.device = .joined ∧ joined.ctp.hold ≠ .powerOn := by
  refine ⟨_, _, rfl, rfl, ?_⟩; decide +kernel

/-- Fields just past their ends; a DISPOSE with two fields at fault, of an unknown lot, and of an absent entry. -/
theorem witness_RequestsRefusedAtOnce :
    ownedRequest (.admitLot 20 7 9 1 500 1 plan1) = some 7 ∧ ownedRequest (.override 31 255) = some 18 ∧ Served bare ∧
    bare.ctp.device = .config ∧ Serving heldCell ∧ 4294967295 < 4294967296 ∧ 255 < 256 ∧ 4095 < 4096 ∧ 2 < 3 ∧
    15 < 16 ∧ 31 < 32 ∧ 48 < 49 ∧ 65535 < 65536 ∧ firstBad (disposeChecks 11 7 4 4 0 4) = some 3 ∧
    firstBad (disposeChecks 99 7 8 5 0 3) = none ∧ (∀ i, ∀ l ∈ lotAt heldCell i, l.id ≠ 99) ∧
    firstBad (disposeChecks 11 7 8 5 0 3) = none ∧ slotOfId heldCell 11 = some 0 ∧
    lotAt heldCell 0 = some heldLot11 ∧ disposeKey 7 5 0 = some (.operator 5) ∧
    ∀ e ∈ heldLot11.holds, e.key ≠ .operator 5 :=
  ⟨rfl, rfl, served_bare, rfl, by unfold Serving Served; decide +kernel, by decide +kernel⟩

theorem witness_ConfigureAndJoin :
    Served joined ∧ joined.ctp.device = .joined ∧ Served bare ∧ bare.ctp.device = .config ∧
    checkConfig (fields.set 33 ⟨0, 19⟩) = .inl 34 ∧ checkConfig fields = .inr blk ∧ bare.ctp.config = none ∧
    Served configured ∧ configured.ctp.device = .config ∧ configured.ctp.config = some blk :=
  ⟨serving_joined.1, rfl, served_bare, rfl, by decide +kernel, by decide +kernel, rfl, served_configured, rfl, rfl⟩

/-- Field 1 missing its value, field 54 out of range, no PASS bin, and a block that passes. -/
theorem witness_ConfigureNamesTheFirstFailingField :
    fields.length = 54 ∧ (fields.set 0 ⟨1, 0⟩).length = 54 ∧ checkConfig (fields.set 0 ⟨1, 0⟩) = .inl 1 ∧
    (fields.set 53 ⟨0, 2⟩).length = 54 ∧ checkConfig (fields.set 53 ⟨0, 2⟩) = .inl 54 ∧
    (fields.set 0 ⟨0, 2⟩).length = 54 ∧ checkConfig (fields.set 0 ⟨0, 2⟩) = .inl 1 ∧
    checkConfig fields = .inr blk := by decide +kernel

/-- One frame waits, then two; and a RESTART is due. -/
theorem witness_RestartWaitingAndBadFrames : Serving joined ∧ isRequestFrame .join = true ∧ ∃ d e f : Device,
    d = { joined with ctp := { joined.ctp with hold := .warm, waiting := [.retry] } } ∧
    e = { joined with ctp := { joined.ctp with hold := .warm, waiting := [.retry, .join] } } ∧
    f = { joined with ctp := { joined.ctp with restartPending := true } } ∧
    (d.ctp.hold = .warm ∧ d.ctp.waiting.length < 2) ∧ (e.ctp.hold = .warm ∧ ¬ e.ctp.waiting.length < 2) ∧
    (f.ctp.hold = .running ∧ f.ctp.restartPending = true) ∧ joined.ctp.hold ≠ .powerOn ∧ Served joined :=
  ⟨serving_joined, rfl, _, _, _, rfl, rfl, rfl, ⟨rfl, by decide⟩, ⟨rfl, by decide⟩, ⟨rfl, rfl⟩, by decide,
    serving_joined.1⟩

/-- The ends of the ranges: LOTS 0 to 7, HANDLERS 33 to 48, HOLDSET of slot 7; refused are tables 0 and 9, slot 8,
counts 0 and 17, index 0 and past 48. -/
theorem witness_StatusRequestAndRead : Served bare ∧ Serving joined ∧
    (tableOfCode 1 = some .lots ∧ (indexRange .lots).1 ≤ 0 ∧ 0 + 8 ≤ (indexRange .lots).2 + 1) ∧
    (tableOfCode 4 = some .handlers ∧ (indexRange .handlers).1 ≤ 33 ∧ 33 + 16 ≤ (indexRange .handlers).2 + 1) ∧
    (tableOfCode 2 = some .holdset ∧ readsSlot .holdset = true ∧ 7 ≤ 7 ∧ 7 < 8) ∧ tableOfCode 0 = none ∧
    tableOfCode 9 = none ∧ 16 < 17 ∧ 0 < (indexRange .handlers).1 ∧ (indexRange .handlers).2 + 1 < 48 + 2 :=
  ⟨served_bare, serving_joined, by decide⟩

theorem witness_RetryAndClearFault : Serving joined ∧ bankOfCode 1 = some .floor ∧ bankOfCode 4 = some .accounting ∧
    bankOfCode 0 = none ∧ bankOfCode 5 = none := ⟨serving_joined, by decide⟩

/-- Not docked; docked at grade A; docked at grade B; leaving at grade C. -/
theorem witness_SetGradeRestoresGradeA : Serving joined ∧ joined.hpt.handler ≠ some 48 ∧ Serving testing ∧
    testing.hpt.handler = some 5 ∧ (testing.tpm.grade ≠ some .b ∧ testing.tpm.grade ≠ some .c) ∧ ∃ d e : Device,
    d = { testing with tpm := { testing.tpm with grade := some .b } } ∧
    e = { leaving with tpm := { leaving.tpm with grade := some .c } } ∧ Serving d ∧ Serving e ∧
    (d.hpt.handler = some 5 ∧ d.tpm.grade = some .b ∧ d.hpt.presence ≠ .leaving) ∧
    (e.hpt.handler = some 5 ∧ e.tpm.grade = some .c ∧ e.hpt.presence = .leaving) := by
  refine ⟨serving_joined, by decide, serving_testing, by decide +kernel, by decide +kernel, _, _, rfl, rfl, ?_⟩
  unfold Serving Served; decide +kernel

/-- All eight slots taken. -/
def full : Device :=
  { joined with lmg := ⟨Vector.ofFn fun i : Fin 8 => some (queuedLot (i.val + 1) (i.val + 1)), 8⟩ }

/-- Two fields at fault at once (kit and the program of entry 1), a lot ID in use, a full table. -/
theorem witness_AdmitRefusalsInOrder : Served bare ∧ bare.ctp.device = .config ∧ Served full ∧
    full.ctp.device = .joined ∧
    firstBad (admitChecks 20 7 0 1 500 1 [⟨0, 1, 1⟩, ⟨0, 0, 0⟩, ⟨0, 0, 0⟩, ⟨0, 0, 0⟩]) = some 3 ∧
    firstBad (admitChecks 20 7 9 3 500000 1 plan1) = none ∧ (∃ l, lotAt full 7 = some l ∧ l.id = 8) ∧
    (∃ r ∈ releasing.rlu.records, r.lotId = 901) ∧ (∀ i, ∀ l ∈ lotAt full i, l.id ≠ 20) ∧
    (∀ r ∈ full.rlu.records, r.lotId ≠ 20) ∧ ∀ i, lotAt full i ≠ none :=
  ⟨served_bare, rfl, ⟨rfl, rfl⟩, rfl, by decide, by decide, ⟨_, rfl, rfl⟩, by decide +kernel, by decide +kernel,
    by decide, by decide +kernel⟩

/-- The sequence counter at its top; no cover, and cover by six entries. -/
def covered (n : Nat) : Device :=
  { joined with
    lmg := { joined.lmg with sequence := 65535 }
    hdu := { joined.hdu with table := (List.range n).map fun k => ⟨100, 9, k + 1, 1, false⟩ } }

theorem witness_AdmitFillsTheLowestEmptySlot : Serving (covered 0) ∧
    firstBad (admitChecks 20 7 9 0 500 1 plan1) = none ∧ idHeld (covered 0) 20 = false ∧
    emptySlot (covered 0) = some 0 ∧ 65535 ≤ (covered 0).lmg.sequence ∧ ¬ 65535 ≤ joined.lmg.sequence ∧
    (∀ e ∈ (covered 0).hdu.table, ∀ p ∈ plan1.take 1, p.program ≠ e.program) ∧ Serving (covered 6) ∧
    idHeld (covered 6) 20 = false ∧ emptySlot (covered 6) = some 0 ∧
    ((covered 6).hdu.table.map fun e => (e.origin, e.tag)).Nodup ∧ ∃ cover,
      cover = (covered 6).hdu.table.filter (fun e => (plan1.take 1).any fun p => p.program == e.program) ∧
      cover ≠ [] ∧ cover.length ≤ 6 := by
  have serving (n : Nat) : Serving (covered n) := ⟨⟨rfl, rfl⟩, rfl⟩
  refine ⟨serving 0, ?_, ?_, ?_, ?_, ?_, ?_, serving 6, ?_, ?_, ?_, _, rfl, ?_⟩ <;> decide +kernel

/-- A lot ID that no lot has, a queued lot, an open lot; notes 0 and 255; a set with room, a set with the key, a set
of six. -/
theorem witness_WithdrawClearStickyAndPlaceHold : Serving testing ∧ (∀ i, ∀ l ∈ lotAt testing i, l.id ≠ 99) ∧
    (∃ l, slotOfId testing 12 = some 1 ∧ lotAt testing 1 = some l ∧ l.opened = false ∧ l.state = .queued) ∧
    (slotOfId testing 11 = some 0 ∧ lotAt testing 0 = some runningLot ∧ runningLot.opened = true ∧
      runningLot.holds.all (fun e => e.key != .operator 255) = true ∧ runningLot.holds.length < 6) ∧
    (∃ l, slotOfId heldCell 11 = some 0 ∧ lotAt heldCell 0 = some l ∧
      l.holds.any (fun e => e.key == .operator 4) = true) ∧
    (∃ l, slotOfId (heldBy 6) 11 = some 0 ∧ lotAt (heldBy 6) 0 = some l ∧
      l.holds.all (fun e => e.key != .operator 255) = true ∧ 6 ≤ l.holds.length) ∧
    Serving heldCell ∧ Serving (heldBy 6) := by
  refine ⟨serving_testing, ?_, ⟨_, ?_, rfl, ?_⟩, ?_, ⟨_, ?_, rfl, ?_⟩, ⟨_, ?_, rfl, ?_⟩, ?_⟩
  all_goals first | decide +kernel | (unfold Serving Served; decide +kernel)

/-- One operator entry (all forms empty the set), two entries (one stays), a REMOTE entry; an overflow mark clear,
set over six entries, and set over none and over one. -/
theorem witness_DisposeResumesClosesOrScraps : Serving heldCell ∧
    firstBad (disposeChecks 11 7 8 4 0 1) = none ∧ firstBad (disposeChecks 11 7 8 4 0 3) = none ∧
    disposeKey 7 4 0 = some (.operator 4) ∧ slotOfId heldCell 11 = some 0 ∧ lotAt heldCell 0 = some heldLot11 ∧
    heldLot11.holds.any (fun e => e.key == .operator 4) = true ∧ isRemote (.operator 4) = false ∧
    (heldLot11.holds.filter (fun e => e.key != .operator 4) = [] ∧ heldLot11.overflow = false ∧
      heldLot11.state = .held) ∧
    (∃ l, lotAt (heldBy 2) 0 = some l ∧ l.holds.any (fun e => e.key == .operator 1) = true ∧
      l.holds.filter (fun e => e.key != .operator 1) ≠ []) ∧
    (firstBad (disposeChecks 11 8 4 31 255 2) = none ∧ disposeKey 8 31 255 = some (.remote 31 255) ∧
      isRemote (.remote 31 255) = true ∧ ∃ l, l = { heldLot11 with holds := [⟨.remote 31 255, 1, 50, 1, false⟩] } ∧
      l.holds.any (fun e => e.key == .remote 31 255) = true) ∧
    heldLot11.overflow = false ∧
    (∃ l, lotAt (testingWith fun _ => { heldLot11 with
        overflow := true, holds := (List.range 6).map fun k => ⟨.operator k, 1, 50, 1, false⟩ }) 0 = some l ∧
      l.overflow = true ∧ 6 ≤ l.holds.length) ∧
    (∃ l, lotAt (testingWith fun _ => { heldLot11 with overflow := true, holds := [] }) 0 = some l ∧
      l.overflow = true ∧ l.holds = [] ∧ l.state = .held) ∧
    (∃ l, lotAt (testingWith fun _ => { heldLot11 with overflow := true }) 0 = some l ∧
      l.overflow = true ∧ l.holds.length < 6 ∧ l.holds ≠ []) := by
  have serving : Serving heldCell := by unfold Serving Served; decide +kernel
  refine ⟨serving, ?_, ?_, ?_, ?_, ?_, ?_, ?_, ?_, ⟨_, rfl, ?_⟩, ⟨?_, ?_, ?_, _, rfl, ?_⟩, ?_, ⟨_, rfl, ?_⟩,
    ⟨_, rfl, ?_⟩, _, rfl, ?_⟩ <;> decide +kernel

/-- Eight entries, none of them own. -/
def flooredFull : Device :=
  { joined with hdu := { joined.hdu with table := (List.range 8).map fun k => ⟨100, 9, k + 1, 1, false⟩ } }

/-- A lot held by an untracked REMOTE (31, 255). -/
def untrackedCell : Device :=
  testingWith fun _ => { heldLot11 with holds := [⟨.remote 31 255, 1, 50, 1, true⟩] }

theorem witness_FloorHoldRequests : Serving flooredCell ∧ Serving flooredFull ∧ Serving untrackedCell ∧
    ownEntryFor flooredCell 200 = some ⟨200, 3, 6, 4, false⟩ ∧
    (ownEntryFor flooredFull 4095 = none ∧ 8 ≤ flooredFull.hdu.table.length) ∧
    (ownEntryFor flooredCell 1 = none ∧ flooredCell.hdu.table.length < 8) ∧
    floorEntry flooredCell (ownStation flooredCell) 255 = none ∧
    floorEntry flooredCell (ownStation flooredCell) 6 = some ⟨200, 3, 6, 4, false⟩ ∧
    floorEntry flooredCell 9 2 = some ⟨300, 9, 2, 5, true⟩ ∧
    (floorEntry untrackedCell 31 255 = none ∧ untrackedHeld untrackedCell 31 255 = true) ∧
    (floorEntry flooredCell 0 1 = none ∧ untrackedHeld flooredCell 0 1 = false) :=
  ⟨⟨⟨rfl, rfl⟩, rfl⟩, ⟨⟨rfl, rfl⟩, rfl⟩, by unfold Serving Served; decide +kernel, by decide +kernel⟩

/-- A record in each state, one RECALLED by an entry and one UNTRACKED; no record 65,535. -/
theorem witness_ReleaseRequestsAndDelay : Serving releasing ∧ recordNumbered releasing 65535 = none ∧
    (∃ r, recordNumbered releasing 1 = some r ∧ r.state = .ready ∧ r.state ≠ .recalled) ∧
    (∃ r, recordNumbered releasing 2 = some r ∧ r.state ≠ .ready ∧ r.state = .delayed ∧ r.timer = some 1800000) ∧
    (∃ r, recordNumbered releasing 3 = some r ∧ r.state = .recalled ∧ r.cause = some .untracked) ∧
    (∃ r, recordNumbered releasing 4 = some r ∧ r.state = .recalled ∧ r.cause ≠ some .untracked) ∧
    live releasing = true := by
  refine ⟨⟨⟨rfl, rfl⟩, rfl⟩, by decide +kernel, ⟨_, rfl, ?_⟩, ⟨_, rfl, ?_⟩, ⟨_, rfl, ?_⟩, ⟨_, rfl, ?_⟩, rfl⟩ <;>
    decide +kernel

/-- A load in flight of program 100; none, with an arm record of program 100 (program 4095 contradicts it). -/
theorem witness_LoadAnswers : live loading = true ∧ (∃ l, loading.tpt.load = some l ∧ l.program = 100) ∧
    live testing = true ∧ testing.tpt.load = none ∧ testing.tpt.arm.program = 100 ∧
    (testing.tpt.arm.state ≠ .unarmed ∧ testing.tpt.arm.program ≠ 4095) ∧ joined.tpt.arm.state = .unarmed := by
  refine ⟨rfl, ⟨_, rfl, rfl⟩, ?_⟩; decide +kernel

theorem witness_ArmAndMaskAnswers : (live armSent = true ∧ armSent.tpt.arm.state = .sent ∧
    openLot armSent = some (0, runningLot) ∧ armSent.tpt.arm.lot = runningLot.id ∧
    armSent.tpt.arm.insertion = runningLot.cur ∧ testing.tpt.arm.state ≠ .sent ∧ testing.tpt.outstanding = []) ∧
    (∃ d : Device, d = withLot 0 { queuedLot 11 1 with state := .queued } armSent ∧ live d = true ∧
      d.tpt.arm.state = .sent ∧ d.tpt.link = .up ∧ openLot d = none) ∧
    ∃ d : Device, d = { testing with tpt := { testing.tpt with outstanding := [4, 0x80] } } ∧ live d = true ∧
      d.tpt.outstanding = 4 :: [0x80] := by
  refine ⟨?_, ⟨_, rfl, ?_⟩, _, rfl, ?_⟩ <;> decide +kernel

/-- Each reason of R34 alone, at its boundary. -/
theorem witness_TouchdownIsRefusedWhole : live testing = true ∧
    (∃ e : Nat × Nat, e ∈ [(8, 0)] ∧ 7 < e.1) ∧ (∃ e : Nat × Nat, e ∈ [(0, 16)] ∧ 15 < e.2) ∧
    ¬ ([(3, 1), (3, 2)].map (·.1) : List Nat).Nodup ∧ 8 < 9 ∧ 16 < 17 ∧ ([(0, 1)] : List (Nat × Nat)).length ≠ 2 := by
  decide +kernel

/-- One entry and eight, one repeat and sixteen; a lot open, a lot closed last, neither. -/
theorem witness_TouchdownsAndDrains :
    (live testing = true ∧ ([(7, 15)] : List (Nat × Nat)).length = 1 ∧
    (((List.range 8).map fun k => (k, 15)).map (·.1)).Nodup ∧
    (∀ e ∈ (List.range 8).map (fun k => (k, 15)), e.1 ≤ 7 ∧ e.2 ≤ 15) ∧
    openLot testing = some (0, runningLot) ∧ (openLot joined = none ∧ lastClosedSlot joined = none) ∧
    ∃ d : Device, d = { withLot 1 (queuedLot 12 2) joined with tpt := { Tpt.reset with lastClosed := some 12 } } ∧
      live d = true ∧ openLot d = none ∧ lastClosedSlot d = some 1) ∧
    (live testing = true ∧ testing.tpt.drain = none ∧ live draining = true ∧
    draining.tpt.drain = some 5000 ∧ openLot draining = some (0, drainedLot) ∧ draining.tpt.link ≠ .down ∧
    draining.tpt.link ≠ .silent ∧ draining.tpt.silence ≠ none) := by
  constructor
  · refine ⟨?_, ?_, ?_, ?_, ?_, ?_, _, rfl, ?_⟩ <;> decide +kernel
  · decide +kernel

/-- Program 0 and 4095; a link UP that agrees, that contradicts with and against the arm record, and not UP. -/
theorem witness_TesterLinkChanges : live testing = true ∧ testing.tpt.drain = none ∧ testing.tpt.link ≠ .down ∧
    testing.tpt.link ≠ .silent ∧ testing.tpt.silence ≠ none ∧ joined.tpt.link ≠ .up ∧ live joined = true ∧
    (testing.tpt.link = .up ∧ testing.tpt.loaded = 100) ∧ (loading.tpt.link = .up ∧ loading.tpt.load ≠ none) ∧
    (testing.tpt.load = none ∧ testing.tpt.loaded ≠ 4095) ∧
    ∃ d : Device, d = { testing with tpt := { testing.tpt with link := .silent } } ∧ live d = true ∧
      d.tpt.link = .silent := by
  refine ⟨?_, ?_, ?_, ?_, ?_, ?_, ?_, ?_, ?_, ?_, _, rfl, ?_⟩ <;> decide +kernel

theorem witness_RefusedMessagesAndQueries : live testing = true ∧ testing.tpt.query ≠ none ∧
    (∃ d : Device, d = { kitting with hpt := { kitting.hpt with presence := .absent, query := some 0 } } ∧
      live d = true ∧ d.hpt.query ≠ none ∧ d.hpt.presence ≠ .present ∧ d.hpt.leaving = none) ∧
    (live leaving = true ∧ leaving.hpt.presence = .leaving ∧ leaving.hpt.presence ≠ .present) ∧
    (live joined = true ∧ joined.hpt.presence ≠ .present) ∧ 1048575 < 1048576 ∧ 32767 < 32768 ∧
    (live bare = false ∧ lineOrTimerEvent (.hello 1 1) = true ∧ lineOrTimerEvent (.delayExpiry 1) = true) := by
  refine ⟨?_, ?_, ⟨_, rfl, ?_⟩, ?_⟩ <;> decide +kernel

/-- Handlers 1 and 48 at an empty dock; the docked handler again; its return; its HELLO while it leaves. -/
theorem witness_HandlerComesAndGoes : live joined = true ∧ joined.hpt.presence = .empty ∧ live testing = true ∧
    (testing.hpt.presence = .present ∧ testing.hpt.handler = some 5 ∧ testing.hpt.kit = 9 ∧
      testing.hpt.leaving = none ∧ testing.hpt.absence ≠ none) ∧
    (∃ d : Device, d = { testing with hpt := { testing.hpt with presence := .absent } } ∧ live d = true ∧
      d.hpt.presence = .absent ∧ d.hpt.handler = some 5 ∧ d.hpt.kit = 9) ∧ ¬ (5 = 5 ∧ testing.hpt.kit = 255) ∧
    ¬ (5 = 48 ∧ testing.hpt.kit = 9) ∧
    (live leaving = true ∧ leaving.hpt.presence = .leaving ∧ leaving.hpt.handler = some 5 ∧
      leaving.hpt.leaving ≠ none) := by
  refine ⟨rfl, rfl, ?_, ?_, ⟨_, rfl, ?_⟩, ?_⟩ <;> decide +kernel

/-- A soak in flight and none; the class soaked for and another; a kit change in flight and none, with and without
an open insertion. -/
theorem witness_SoakAndKitChangeReports : (live soaking = true ∧ soaking.hpt.presence = .present ∧
      soaking.hpt.soak = some ⟨.room, 11, 60000⟩ ∧ tempOfCode 1 = some .room ∧ tempOfCode 3 ≠ some .room) ∧
    (live testing = true ∧ testing.hpt.presence = .present ∧ testing.hpt.soak = none ∧
      testing.hpt.kitChange = none ∧ anyOpen testing = true) ∧
    (live kitting = true ∧ kitting.hpt.presence = .present ∧ kitting.hpt.kitChange = some ⟨8, 600000⟩ ∧ 255 ≠ 8) ∧
    (live idleDock = true ∧ idleDock.hpt.presence = .present ∧ idleDock.hpt.kitChange = none ∧
      anyOpen idleDock = false) := by decide +kernel

/-- A complete interval that is a jam (threshold 1000 ms), one that is not, the largest record. -/
theorem witness_IndexRecordsAndLostUnits :
    (live timing = true ∧ timing.hpt.presence = .present ∧ 32767 ≤ 32767 ∧
    timing.hpt.capSpoiled = false ∧ timing.hpt.capFirst = false ∧
    (cfg timing).jamThreshold * 100 ≤ min 16777215 (timing.hpt.capAcc + 400) ∧
    ¬ (cfg timing).jamThreshold * 100 ≤ min 16777215 (timing.hpt.capAcc + 399)) ∧
    (live testing = true ∧ testing.hpt.presence = .present ∧
    openLot testing = some (0, runningLot) ∧
    (live idleDock = true ∧ idleDock.hpt.presence = .present ∧ openLot idleDock = none ∧
      lastClosedSlot idleDock = none) ∧
    ∃ d : Device, d = { withLot 1 (queuedLot 12 2) idleDock with tpt := { Tpt.reset with lastClosed := some 12 } } ∧
      live d = true ∧ d.hpt.presence = .present ∧ openLot d = none ∧ lastClosedSlot d = some 1) := by
  constructor
  · decide +kernel
  · refine ⟨by decide +kernel, by decide +kernel, by decide +kernel, by decide +kernel, _, rfl, ?_⟩; decide +kernel

/-- A lot that has units owed in the pass it is in. -/
def owing (st : LotState) (r : Option ResumeStep) : Lot :=
  { runningLot with
    state := st, resume := r, acc := { Accum.zero with pendingNow := 1, t1 := 1, first := Accum.zero.first.set 2 1 } }

theorem witness_PassEndAdvancesTheLot : live testing = true ∧ testing.hpt.presence = .present ∧
    openLot testing = some (0, runningLot) ∧ runningLot.step = some (.pass 0) ∧ testing.hpt.pass = some 0 ∧
    testing.hpt.handler = testing.hpt.passHandler ∧ testing.hpt.intake = 3 ∧ 1048575 ≠ testing.hpt.intake ∧
    runningLot.step ≠ some (.pass 3) ∧
    (∀ l ∈ [owing .running none, owing .retest none, owing .held (some (.retest 0)), owing .held (some .running),
      owing .staging none],
      0 < l.acc.pendingNow ∧ 0 < (currentEntry l).retests) ∧
    (runningLot.acc.pendingNow = 0 ∧ runningLot.state ≠ .held) ∧
    (currentEntry (owing .held (some (.retest 1)))).retests ≤ 1 := by decide +kernel

theorem witness_ReadyAndRunTime : live testing = true ∧ testing.hpt.effRun = true ∧
    openLot testing = some (0, runningLot) ∧ testing.tpm.period = some 0 := by decide +kernel

/-- Gate-on time just at half the period (valid) and just under it (skipped); each count at its last value. -/
theorem witness_PeriodEndJudgesTheSample : live testing = true ∧ testing.tpm.period ≠ none ∧
    dockedHandler testing = some 5 ∧ testing.tpm.grade = some .a ∧
    ¬ 7500 < (cfg testing).samplePeriod * 1000 / 2 ∧ 7499 < (cfg testing).samplePeriod * 1000 / 2 ∧
    min 65535 (2 * 3600000 / 7500) < (cfg testing).minUph ∧ ¬ 2 < 2 ∧ ¬ 7 < 7 := by decide +kernel

/-- A known entry, a new key with room and without, a LIFT of an entry and of none; a STATUS with and without a
docked handler. -/
theorem witness_HoldsLiftsAndStatusHeard : floorLive flooredCell = true ∧ 9 ≠ ownStation flooredCell ∧
    31 ≠ ownStation flooredCell ∧ (∃ e, floorEntry flooredCell 9 2 = some e ∧ e.program = 300 ∧ e.program ≠ 4095) ∧
    (floorEntry flooredCell 31 255 = none ∧ flooredCell.hdu.table.length < 8) ∧
    (floorLive flooredFull = true ∧ 31 ≠ ownStation flooredFull ∧ floorEntry flooredFull 31 255 = none ∧
      8 ≤ flooredFull.hdu.table.length) ∧
    statusOk ⟨1, 0, 0, 0, 0, [], []⟩ = true ∧
    statusOk ⟨4, 8, 48, 255, 3, [⟨1, 0, 1⟩, ⟨2, 255, 2⟩, ⟨3, 1, 3⟩, ⟨4, 1, 1⟩],
      (List.range 8).map fun k => ⟨4095, k + 1, 15⟩⟩ = true := by
  refine ⟨rfl, by decide, by decide, ⟨_, rfl, rfl, by decide⟩, ?_⟩; decide +kernel

/-- A peer's CLAIM, DOCK, PARK and SEEK; the idle dock asked for its kit and for another; a DOCK of the handler of the
own dock record in PRESENT and in ABSENT. -/
theorem witness_AssignmentBulletinsHeard : floorLive idleDock = true ∧ 31 ≠ ownStation idleDock ∧
    dockedHandler idleDock ≠ some 48 ∧ (handlerIdle idleDock = true ∧ idleDock.hpt.kit = 9 ∧ idleDock.hpt.kit ≠ 255) ∧
    (floorLive testing = true ∧ handlerIdle testing = false) ∧
    (idleDock.hpt.handler = some 5 ∧ idleDock.asu.need.target ≠ some 5 ∧ idleDock.hpt.presence = .present) ∧
    ∃ d : Device, d = { idleDock with hpt := { idleDock.hpt with presence := .absent } } ∧ floorLive d = true ∧
      d.hpt.handler = some 5 ∧ d.asu.need.target ≠ some 5 ∧ d.hpt.presence = .absent := by
  refine ⟨?_, ?_, ?_, ?_, ?_, ?_, _, rfl, ?_⟩ <;> decide +kernel

theorem witness_FloorLineEvents : floorLive joined = true ∧
    (live sending = true ∧ sending.fli.line = .active ∧ sending.fli.slot = none ∧ sending.fli.busy = false ∧
      sending.fli.queue = ⟨.seek 9 1, 4⟩ :: [⟨.status, 2⟩]) ∧
    live bare = false ∧ attempting.fli.slot ≠ none ∧ joined.fli.queue = [] ∧ joined.fli.slot = none ∧
    holdOk ⟨0, 1, 1⟩ = false ∧ holdOk ⟨4095, 255, 15⟩ = true ∧ seekOk 255 4 = false ∧ seekOk 255 3 = true ∧
    3 = ownStation joined := by decide +kernel

/-- A score that reaches 64 and one that does not. -/
theorem witness_AttemptEndsAndLineTimers :
    (floorLive attempting = true ∧
    attempting.fli.slot = some ⟨.seek 9 1, 4, none, false⟩ ∧ 64 ≤ attempting.fli.score + 8 ∧
    attempting.fli.line = .active ∧ ∃ d : Device, d = { attempting with fli := { attempting.fli with score := 55 } } ∧
      floorLive d = true ∧ d.fli.slot = some ⟨.seek 9 1, 4, none, false⟩ ∧ d.fli.score + 8 < 64) ∧
    (live joined = true ∧ joined.fli.statusTimer = some 2000 ∧ joined.fli.line = .active ∧
    ∃ d : Device, d = { joined with fli := { joined.fli with
        line := .listen, quietTimer := some 0, peers := joined.fli.peers.set 31 ⟨.heard, some 0⟩ } } ∧
      live d = true ∧ d.fli.statusTimer = some 2000 ∧ d.fli.line = .listen ∧ d.fli.quietTimer = some 0 ∧
      d.fli.peers[31].timer = some 0) := by
  constructor
  · refine ⟨rfl, rfl, by decide, rfl, _, rfl, by decide +kernel⟩
  · refine ⟨rfl, rfl, rfl, _, rfl, by decide +kernel⟩

theorem witness_AssignmentTimersAndParking :
    ((∃ d : Device, d = setEntry 48 ⟨.claimed, some 6, 9, none, some 2, none, some 0⟩ joined ∧ live d = true ∧
      (entryAt d 48).timer = some 0) ∧
    (∃ d : Device, d = needing { Need.idle with state := .seeking, seekTimer := some 0 } ∧ live d = true ∧
      d.asu.need.seekTimer = some 0 ∧ d.asu.need.state = .seeking) ∧
    (∃ d : Device, d = needing { Need.idle with
        state := .claiming, target := some 1, seekTimer := some 0, windowTimer := some 0 } ∧ live d = true ∧
      d.asu.need.seekTimer = some 0 ∧ d.asu.need.windowTimer = some 0 ∧ d.asu.need.state = .claiming ∧
      d.asu.need.target = some 1 ∧ d.asu.need.claimSent = false) ∧
    (∃ d : Device, d = needing { Need.idle with state := .won, target := some 1, dockWaitTimer := some 0 } ∧
      live d = true ∧ d.asu.need.dockWaitTimer = some 0 ∧ d.asu.need.state = .won ∧ d.asu.need.target = some 1) ∧
    live idleDock = true ∧ idleDock.asu.idleTimer = some 1800000) ∧
    (idleDock.hpt.presence = .present ∧ idleDock.hpt.handler = some 5) := by
  constructor
  · refine ⟨⟨_, rfl, ?_⟩, ⟨_, rfl, ?_⟩, ⟨_, rfl, ?_⟩, ⟨_, rfl, ?_⟩, ?_⟩ <;> decide +kernel
  · decide +kernel

/-- T1 one below its ceiling in counting pass 0; one unit owed in a retest pass. -/
theorem witness_CountedResults :
    (∃ l, lotAt (testingWith fun l => { l with acc := { l.acc with t1 := 1048574 } }) 0 = some l ∧
      l.acc.countingPass = 0 ∧ l.acc.t1 < 1048575) ∧
    (∃ l, lotAt (testingWith fun _ => { owing .retest none with
        acc := { (owing .retest none).acc with countingPass := 1 } }) 0 = some l ∧
      l.acc.countingPass ≠ 0 ∧ 0 < l.acc.pendingNow) := by
  refine ⟨⟨_, rfl, ?_⟩, ⟨_, rfl, ?_⟩⟩ <;> decide +kernel

/-- The configuration changed, the device otherwise as it is. -/
def withCfg (f : ConfigBlock → ConfigBlock) (d : Device) : Device :=
  { d with ctp := { d.ctp with config := some (f (cfg d)) } }

def fresh : Lot := { queuedLot 12 1 with state := .staging }

/-- Lot 12 in STAGING: nothing loaded or armed, then the tester loaded, then the insertion open, armed and not. -/
def starting : Device :=
  { withLot 0 fresh idleDock with tpt := { Tpt.reset with link := .up } }
def ready : Device := { starting with tpt := { starting.tpt with loaded := 100 } }
def restaged (started : Bool) (a : ArmState) : Device :=
  { withLot 0 { fresh with opened := true, step := some (.pass 0), passStarted := started } ready with
    tpt := { ready.tpt with arm := ⟨a, 12, 1, 100, 0xFF⟩ } }

theorem witness_TheCellStartsItsWork :
    (lotAt testing 0 = some runningLot ∧ runningLot.opened = true) ∧
    (∀ i, ∀ l ∈ lotAt joined i, l.state ≠ .queued ∧ l.opened = false ∧ l.state ≠ .staging) ∧
    (∃ d : Device, d = withLot 7 (queuedLot 13 1) (withLot 1 (queuedLot 12 2) joined) ∧
      (∀ i, ∀ l ∈ lotAt d i, l.opened = false ∧ l.state ≠ .staging) ∧ lotAt d 7 = some (queuedLot 13 1) ∧
      ∀ j, ∀ m ∈ lotAt d j, m.state = .queued → j ≠ 7 → queueBefore (queuedLot 13 1) m = true) ∧
    (loadTarget starting = some fresh ∧ (currentEntry fresh).program = 100 ∧ starting.tpt.loaded ≠ 100 ∧
      starting.tpt.load = none ∧ starting.tpt.link = .up ∧ starting.tpt.arm.state ≠ .sent ∧
      starting.tpt.target ≠ some 12 ∧ starting.tpt.loadBlocked = none ∧ loadTarget ready = some fresh ∧
      ready.tpt.loaded = 100) ∧
    (∃ d : Device, d = { starting with hpt := { starting.hpt with soaked := none } } ∧ soakTarget d = some fresh ∧
      d.hpt.presence = .present ∧ d.hpt.kit = fresh.kit ∧ d.hpt.soakHeard = true ∧ d.tpm.grade = some .a ∧
      d.hpt.soak = none ∧ d.hpt.kitChange = none ∧ d.hpt.soakBlocked = none) ∧
    (soakTarget starting = some fresh ∧ starting.hpt.soaked = some .room) ∧
    (stagingLot ready = some (0, fresh) ∧ fresh.opened = false ∧ handlerReady ready fresh = true ∧
      testerReady ready fresh = true ∧ stagingLot starting = some (0, fresh) ∧ testerReady starting fresh = false) ∧
    (∀ started, ∃ l, stagingLot (restaged started .armed) = some (0, l) ∧ l.opened = true ∧
      l.step = some (.pass 0) ∧ l.passStarted = started ∧ armedFor (restaged started .armed) l = true ∧
      handlerReady (restaged started .armed) l = true ∧ handlerReady { restaged started .armed with
        tpm := { Tpm.reset with grade := some .c } } l = false) ∧
    (∃ l, stagingLot (restaged false .unarmed) = some (0, l) ∧ armedFor (restaged false .unarmed) l = false ∧
      handlerReady (restaged false .unarmed) l = true ∧ testerReady (restaged false .unarmed) l = true ∧
      (restaged false .unarmed).tpt.armRefused ≠ some l.id) ∧
    (openLot testing = some (0, runningLot) ∧ runningLot.state ≠ .staging ∧ runningLot.step = some (.pass 0) ∧
      armedFor testing runningLot = true) ∧
    ∃ d : Device, d = clearArm testing ∧ openLot d = some (0, runningLot) ∧ armedFor d runningLot = false ∧
      testerReady d runningLot = true ∧ d.tpt.armRefused ≠ some runningLot.id := by
  refine ⟨?_, ?_, ⟨_, rfl, ?_⟩, ?_, ⟨_, rfl, ?_⟩, ?_, ?_, fun b => ⟨_, rfl, by cases b <;> decide +kernel⟩,
    ⟨_, rfl, ?_⟩, ?_, _, rfl, ?_⟩ <;> decide +kernel

/-- Twelve entries queued: 11 handlers parked, and one bulletin more at the end. -/
def crowded (b : Bulletin) : Device :=
  { joined with fli := { joined.fli with
      queue := (List.range 11).map (fun k => ⟨.park (k + 1) 9 (some .a), k⟩) ++ [⟨b, 11⟩], nextAge := 12 } }

theorem witness_OffersAndTheNeed :
    (joined.fli.line = .active ∧ (∀ b ∈ [Bulletin.seek 9 1, .status], ∀ e ∈ joined.fli.queue,
      replaces b e.bulletin = false) ∧ joined.fli.queue.length < 12) ∧
    (∃ e ∈ sending.fli.queue, replaces (.seek 8 0) e.bulletin = true) ∧
    (∃ e ∈ (crowded (.hold 100 7 1)).fli.queue, replaces (.lift 100 7) e.bulletin = true) ∧
    (∀ b ∈ [Bulletin.status, .seek 9 1, .hold 100 7 1], (crowded b).fli.line = .active ∧
      (crowded b).fli.queue.length = 12 ∧
      ∀ x ∈ [Bulletin.hold 100 6 1, .lift 100 6, .claim 48 9 1, .dock 47 9 (some .a), .park 48 9 (some .b)],
        ∀ e ∈ (crowded b).fli.queue, replaces x e.bulletin = false) ∧
    ((∃ e ∈ (crowded .status).fli.queue, e.bulletin = .status) ∧
      (∀ e ∈ (crowded (.seek 9 1)).fli.queue, e.bulletin ≠ .status) ∧
      (∃ e ∈ (crowded (.seek 9 1)).fli.queue, e.bulletin = .seek 9 1) ∧
      ∀ e ∈ (crowded (.hold 100 7 1)).fli.queue, isStatus e.bulletin = false ∧ isSeek e.bulletin = false) ∧
    (stagingLot starting = some (0, fresh) ∧ starting.asu.need.state = .idle ∧ dockedHandler starting ≠ none ∧
      starting.hpt.kit = fresh.kit ∧ starting.tpm.grade ≠ some .c) ∧
    (∃ d : Device, d = needing Need.idle ∧ (∃ l, stagingLot d = some (0, l)) ∧ d.asu.need.state = .idle ∧
      dockedHandler d = none ∧ d.hpt.kitChange = none ∧ (∀ h, h < 49 → (entryAt d h).state ≠ .free) ∧
      d.hpt.presence ≠ .present) ∧
    (∃ d : Device, d = setEntry 48 ⟨.free, none, 9, some .a, none, some 4, none⟩
        (setEntry 1 ⟨.free, none, 9, some .b, none, some 4, none⟩ (needing Need.idle)) ∧
      (entryAt d 48).state = .free ∧ (entryAt d 48).kit = 9 ∧ (entryAt d 48).grade = some .a ∧
      (entryAt d 1).state = .free ∧ (entryAt d 1).grade = some .b ∧ dockedHandler d = none) ∧
    (∃ d : Device, d = { needing Need.idle with hpt := { testing.hpt with kit := 8 }, tpm := testing.tpm } ∧
      d.hpt.presence = .present ∧ d.hpt.kit ≠ 9 ∧ d.hpt.kitChange = none ∧ d.tpm.grade = some .a ∧ anyOpen d = false ∧
      ∀ h, h < 49 → (entryAt d h).state ≠ .free) ∧
    (∃ d : Device, d = { needing Need.idle with hpt := { kitting.hpt with kitChange := some ⟨9, 1⟩ } } ∧
      d.hpt.kitChange = some ⟨9, 1⟩ ∧ d.hpt.kit ≠ 9) ∧
    (∀ n ∈ [NeedState.seeking, .claiming, .won], ∃ d : Device,
      d = { joined with asu := { joined.asu with need := { Need.idle with state := n, target := some 48, kit := 9 } } } ∧
      d.asu.need.state = n ∧ stagingLot d = none ∧ d.asu.need.target = some 48) := by
  refine ⟨?_, ?_, ?_, ?_, ?_, ?_, ⟨_, rfl, ⟨_, rfl⟩, ?_⟩, ⟨_, rfl, ?_⟩, ⟨_, rfl, ?_⟩, ⟨_, rfl, ?_⟩,
    fun n _ => ⟨_, rfl, rfl, rfl, rfl⟩⟩ <;> decide +kernel

/-- A window one and two short of its 200, a run one short of its limit 2 at an ENABLED and a DISABLING site, a disable allowed
and not, the tester ARMED and not. -/
theorem witness_StatisticsOfACountedResult :
    (lotAt testing 0 = some runningLot ∧ runningLot.acc.countingPass = 0 ∧ binClass (cfg testing) 1 = some .pass ∧
      binClass (cfg testing) 15 ≠ some .pass ∧ runningLot.stats.run[7] + 1 < (cfg testing).siteRunLimit) ∧
    (∃ d l, d = testingWith (fun l => { l with stats := { l.stats with run := l.stats.run.set 7 1 } }) ∧
      lotAt d 0 = some l ∧ l.acc.countingPass = 0 ∧ (cfg d).siteRunLimit ≤ l.stats.run[7] + 1 ∧
      d.tpt.mask[7] = .enabled ∧ (cfg d).siteDisable = false ∧ d.tpt.arm.state = .armed ∧ d.tpt.link = .up ∧
      ∃ e : Device, e = withCfg (fun c => { c with siteDisable := true, minSites := 7 }) d ∧
        (cfg e).siteDisable = true ∧
        (cfg e).minSites ≤ (siteList.filter fun j => e.tpt.mask[j] = .enabled).length - 1 ∧
        ∃ f : Device, f = withCfg (fun c => { c with siteDisable := true, minSites := 8 }) (setSite 7 .disabling d) ∧
          f.tpt.mask[7] = .disabling ∧
          (siteList.filter fun j => d.tpt.mask[j] = .enabled).length - 1 < (cfg f).minSites) ∧
    (∃ l, lotAt (testingWith fun l => { l with stats := { l.stats with winResults := 198 } }) 0 = some l ∧
      l.stats.winResults + 1 < 200) ∧
    (∃ l, lotAt (testingWith fun l => { l with stats := { l.stats with winResults := 199 } }) 0 = some l ∧
      200 ≤ l.stats.winResults + 1) ∧
    (cfg testing).windowSize = 200 ∧ joined.tpt.arm.state ≠ .armed := by
  refine ⟨?_, ⟨_, _, rfl, rfl, ?_, ?_, ?_, ?_, ?_, ?_, _, rfl, ?_, ?_, _, rfl, ?_⟩, ⟨_, rfl, ?_⟩, ⟨_, rfl, ?_⟩, ?_⟩ <;>
    decide +kernel

/-- A lot at a window close with half a window, with less, with a summary, with more insertions and at its last. -/
theorem witness_WindowAndInsertionClose :
    (∃ l, lotAt (testingWith fun l => { l with stats := { l.stats with winResults := 100 } }) 0 = some l ∧
      (cfg testing).windowSize / 2 ≤ l.stats.winResults) ∧
    (lotAt testing 0 = some runningLot ∧ runningLot.stats.winResults < (cfg testing).windowSize / 2) ∧
    ∀ g ∈ [0, 1], ∀ h ∈ [[], [(⟨.final, 1, 50, 1, false⟩ : HoldEntry)]], ∃ l m,
      lotAt (testingWith fun l => { l with
        plan := l.plan ++ l.plan, holds := h, summary := some ⟨1, 1000, 1000, g, 0, 1000 - g, 0, 50, 10 * g, 10000⟩ }) 0 = some l ∧
      l.summary = some m ∧ m.good = g ∧ l.holds = h ∧ l.cur < l.plan.length ∧ l.overflow = false := by
  refine ⟨⟨_, rfl, by decide +kernel⟩, by decide +kernel, fun g _ h _ => ⟨_, _, rfl, rfl, rfl, rfl, ?_⟩⟩
  exact ⟨show 1 < 2 by decide, rfl⟩

/-- T1 at its ceiling in counting pass 0 with the bank taken, and in a retest pass with a unit owed; nothing owed. -/
theorem witness_SaturatedAndStrayResultsAreDropped :
    (∃ d : Device, d = raise .accounting .note .late 0
        (testingWith fun l => { l with acc := { l.acc with t1 := 1048575 } }) ∧
      (∃ l, lotAt d 0 = some l ∧ l.acc.countingPass = 0 ∧ l.acc.t1 = 1048575) ∧ d.ctp.accountingBank.record ≠ none) ∧
    (∃ l, lotAt (testingWith fun _ => { owing .retest none with
        acc := { (owing .retest none).acc with countingPass := 1, t1 := 1048575 } }) 0 = some l ∧
      l.acc.countingPass ≠ 0 ∧ l.acc.t1 = 1048575 ∧ 0 < l.acc.pendingNow) ∧
    (∃ l, lotAt (testingWith fun l => { l with acc := { l.acc with countingPass := 3 } }) 0 = some l ∧
      l.acc.countingPass ≠ 0 ∧ l.acc.pendingNow = 0) := by
  refine ⟨⟨_, rfl, ⟨_, rfl, ?_⟩, ?_⟩, ⟨_, rfl, ?_⟩, ⟨_, rfl, ?_⟩⟩ <;> decide +kernel

theorem witness_CountingKeepsTheBalance : Balanced drainedLot.acc ∧ drainedLot.acc.t1 < 1048575 ∧
    Balanced { Accum.zero with pendingNow := 1, t1 := 1 } ∧
    0 < ({ Accum.zero with pendingNow := 1, t1 := 1 } : Accum).pendingNow := by
  unfold Machine.Balanced; decide +kernel

/-! ## Witnesses of the operations' clauses -/

/-- A peer number past the last, a peer, an entry and a record without a running timer. -/
theorem witness_StoppedTimers : bare.tpt.query = none ∧ bare.hpt.query = none ∧ 32 ≤ 32 ∧
    joined.fli.peers[31].timer = none ∧ (entryAt joined 48).timer = none ∧ recordNumbered releasing 65535 = none ∧
    (∃ r, recordNumbered releasing 1 = some r ∧ r.state ≠ .delayed) := by
  refine ⟨rfl, rfl, by decide, by decide +kernel, by decide +kernel, by decide +kernel, _, rfl, ?_⟩; decide

/-- Two frames that wait for the end of a warm reset. -/
theorem witness_WaitingFrames : ∃ d : Device,
    d = { testing with ctp := { testing.ctp with hold := .warm, waiting := [.statusRequest, .retry] } } ∧
    d.ctp.hold = .warm ∧ d.ctp.waiting = [.statusRequest] ++ [.retry] ∧ isRequestFrame .retry = true ∧
    [Instr.statusRequest] = [] ++ [.statusRequest] ∧ isRequestFrame .statusRequest = true :=
  ⟨_, rfl, rfl, rfl, rfl, rfl, rfl⟩

/-- Eight covering entries; a staging lot that gives way, one that is open, one of class 0. -/
theorem witness_CoverAndPreempt : Serving (covered 8) ∧ idHeld (covered 8) 20 = false ∧
    emptySlot (covered 8) = some 0 ∧ ((covered 8).hdu.table.map fun e => (e.origin, e.tag)).Nodup ∧
    ((covered 8).hdu.table.filter fun e => (plan1.take 1).any fun p => p.program == e.program).length = 8 ∧
    (stagingLot starting = some (0, fresh) ∧ 1 ≤ fresh.cls ∧ fresh.opened = false) ∧
    (∃ l, stagingLot (restaged true .armed) = some (0, l) ∧ l.opened = true) ∧
    stagingLot (withLot 0 { fresh with cls := 0 } starting) = some (0, { fresh with cls := 0 }) := by
  refine ⟨⟨⟨rfl, rfl⟩, rfl⟩, ?_, ?_, ?_, ?_, ?_, ⟨_, rfl, ?_⟩, ?_⟩ <;> decide +kernel

/-- A lot that holds and is not HELD, one HELD, one that nothing holds; a key in the set, one not, a full set. -/
theorem witness_HoldRequests :
    (∃ l, lotAt (testingWith fun l => { l with overflow := true }) 0 = some l ∧ l.state = .running ∧
      l.overflow = true) ∧
    (∃ l, lotAt heldCell 0 = some l ∧ l.state = .held ∧ (∃ e ∈ l.holds, e.key = .operator 4) ∧
      (∀ e ∈ l.holds, e.key ≠ .remote 9 2) ∧ l.holds.length < 6) ∧
    (lotAt testing 0 = some runningLot ∧ runningLot.holds = [] ∧ runningLot.overflow = false) ∧
    (∃ l, lotAt (heldBy 6) 0 = some l ∧ (∀ e ∈ l.holds, e.key ≠ .restart) ∧ 6 ≤ l.holds.length) := by
  refine ⟨⟨_, rfl, ?_⟩, ⟨_, rfl, by decide +kernel, ⟨_, List.mem_cons_self, rfl⟩, ?_⟩, ?_, ⟨_, rfl, ?_⟩⟩ <;>
    decide +kernel

/-- A lot without an open insertion, an open one armed with the link UP and not UP, an open one not armed; the step
DRAIN; a drain that the arm record names and one it does not. -/
theorem witness_ScrapAndDrain :
    (lotAt testing 1 = some (queuedLot 12 2) ∧ (queuedLot 12 2).opened = false) ∧
    (lotAt testing 0 = some runningLot ∧ runningLot.opened = true ∧ armedFor testing runningLot = true ∧
      testing.tpt.link = .up ∧ runningLot.step ≠ some .drain ∧ openLot testing = some (0, runningLot)) ∧
    (∃ d : Device, d = { testing with tpt := { testing.tpt with link := .down } } ∧
      lotAt d 0 = some runningLot ∧ armedFor d runningLot = true ∧ d.tpt.link ≠ .up) ∧
    armedFor (clearArm testing) runningLot = false ∧ (clearArm testing).tpt.arm.state = .unarmed ∧
    (lotAt draining 0 = some drainedLot ∧ drainedLot.step = some .drain) ∧ openLot joined = none := by
  refine ⟨?_, ?_, ⟨_, rfl, ?_⟩, ?_, ?_, ?_, ?_⟩ <;> decide +kernel

/-- Each resume step; the close-on-continue mark; a pass as the tester and handler need, started and not; not so. -/
theorem witness_Continues :
    (∀ r : ResumeStep, ∃ l, lotAt (testingWith fun _ => { heldLot11 with resume := some r }) 0 = some l ∧
      l.resume = some r ∧ l.closeOnContinue = false) ∧
    (∃ l, lotAt (testingWith fun _ => { heldLot11 with closeOnContinue := true }) 0 = some l ∧
      l.resume = some .running ∧ l.closeOnContinue = true ∧ l.step = some (.pass 0)) ∧
    (heldCell.tpt.arm.state = .armed ∧ heldCell.tpt.arm.lot = heldLot11.id ∧
      heldCell.tpt.arm.insertion = heldLot11.cur ∧ heldCell.hpt.presence = .present ∧
      heldCell.hpt.handler = heldCell.hpt.passHandler ∧ heldCell.hpt.kit = heldLot11.kit ∧
      heldCell.hpt.soaked = some (currentEntry heldLot11).temp ∧ heldLot11.passStarted = true) ∧
    (lotAt (testingWith fun _ => { heldLot11 with passStarted := false }) 0 =
      some { heldLot11 with passStarted := false }) ∧ (clearArm heldCell).tpt.arm.state ≠ .armed := by
  refine ⟨fun r => ⟨_, rfl, rfl, rfl⟩, ⟨_, rfl, ?_⟩, ?_, ?_, ?_⟩ <;> decide +kernel

/-- A free place and none, with a lot in REVIEW whose wait has been noted and not; a record covered and not. -/
theorem witness_ReleasePlaces : ∃ (l : Lot) (m : CloseSummary) (d e : Device),
    l = { queuedLot 12 2 with state := .review, summary := some m } ∧ m = ⟨1, 1000, 1000, 1000, 0, 0, 0, 50, 10000, 0⟩ ∧
    d = withLot 7 l releasing ∧ e = { d with rlu := ⟨(List.range 6).map fun k => record (k + 1) .ready none, 6⟩ } ∧
    d.rlu.records.length < 6 ∧ lotAt d 7 = some l ∧ l.state = .review ∧
    (∀ j, ∀ x ∈ lotAt d j, x.state = .review → j = 7) ∧ 6 ≤ e.rlu.records.length ∧ lotAt e 7 = some l ∧
    l.releaseWaitNoted = false ∧
    (∃ n, lotAt (withLot 7 { l with releaseWaitNoted := true } e) 7 = some n ∧ n.releaseWaitNoted = true) ∧
    l.summary = some m ∧ (∀ i, ∀ x ∈ lotAt releasing i, x.state ≠ .review) ∧
    ((covered 1).hdu.table.find? fun f => (l.plan.map (·.program)).contains f.program) = some ⟨100, 9, 1, 1, false⟩ ∧
    (∀ f ∈ flooredCell.hdu.table, f.program ∉ [(101 : Nat)]) ∧ (cfg d).releaseDelay ≠ 0 := by
  refine ⟨_, _, _, _, rfl, rfl, rfl, rfl, ?_, ?_, ?_, ?_, ?_, ?_, ?_, ⟨_, rfl, ?_⟩, ?_, ?_, ?_, ?_, ?_⟩ <;>
    decide +kernel

/-- No target; a target that the arm record names; a re-staged lot not armed for whose ARM was refused. -/
theorem witness_Targets : (stagingLot joined = none ∧ openLot joined = none) ∧
    (stagingLot testing = none ∧ openLot testing = some (0, runningLot) ∧ runningLot.step = some (.pass 0) ∧
      armedFor testing runningLot = true) ∧
    (∃ l, openLot draining = some (0, l) ∧ (∀ k, l.step ≠ some (.pass k)) ∧ stagingLot draining = none) ∧
    (∃ l d, d = { restaged false .unarmed with tpt := { (restaged false .unarmed).tpt with armRefused := some 12 } } ∧
      stagingLot d = some (0, l) ∧ l.opened = true ∧ l.step = some (.pass 0) ∧ armedFor d l = false ∧
      d.tpt.armRefused = some l.id) ∧
    (∃ l, stagingLot (withLot 0 { fresh with opened := true, step := some .drain } ready) = some (0, l) ∧
      l.opened = true ∧ l.step = some .drain) := by
  refine ⟨by decide +kernel, by decide +kernel, ⟨drainedLot, by decide +kernel, fun k => by simp [drainedLot],
    by decide +kernel⟩, ⟨_, _, rfl, rfl, ?_⟩, ⟨_, rfl, ?_⟩⟩ <;> decide +kernel

/-- A DISABLED site and an ENABLED one; T1 above Q_in with the mark clear and set, and T1 at Q_in. -/
theorem witness_ResultOperations : (lotAt testing 0 = some runningLot ∧ testing.tpt.mask[7] ≠ .disabled ∧
      (setSite 7 .disabled testing).tpt.mask[7] = .disabled ∧ runningLot.acc.t1 ≤ runningLot.qIn) ∧
    (∀ b, ∃ l, lotAt (testingWith fun l => { l with
        acc := { l.acc with t1 := 1001, overcountMark := b } }) 0 = some l ∧ l.qIn < l.acc.t1 ∧
      l.acc.overcountMark = b) := by
  refine ⟨by decide +kernel, fun b => ⟨_, rfl, ?_, rfl⟩⟩; exact show 1000 < 1001 by decide

/-- Effective run on and off, no period, a period at its end, no open insertion. -/
theorem witness_ElapsedTime : (live testing = true ∧ testing.hpt.effRun = true ∧ testing.tpm.period = some 0 ∧
      testing.tpm.gateOn ≤ testing.tpm.period.getD 0) ∧ joined.hpt.effRun = false ∧ joined.tpm.period = none ∧
    live bare = false ∧ openLot joined = none ∧ (testing.pins.ready = true ∧ feedGate testing = true) := by
  decide +kernel

/-- Entries of every state; a kit at the own handler and at another; the own handler's need in each state. -/
theorem witness_TableAndNeed :
    (∀ x : HandlerState, ∃ d : Device,
      d = setEntry 48 ⟨x, some 4, 9, some .a, some 2, none, none⟩ { joined with asu := { joined.asu with
        need := { Need.idle with
          state := .claiming, target := some 48, kit := 9, claimSent := true, lastClass := some 2 } } } ∧
      (entryAt d 48).state = x ∧ (entryAt d 48).station = some 4 ∧ (entryAt d 48).strength = some 2 ∧
      dockedHandler d ≠ some 48 ∧ d.asu.need.target = some 48 ∧ d.asu.need.state = .claiming ∧
      (2 < d.asu.need.lastClass.getD 0 ∨ (2 = d.asu.need.lastClass.getD 0 ∧ 2 < ownStation d)) ∧
      ¬ (2 < d.asu.need.lastClass.getD 0 ∨ (2 = d.asu.need.lastClass.getD 0 ∧ 4 < ownStation d)) ∧
      (entryAt d 48).kit = 9 ∧ (entryAt d 48).grade = some .a) ∧
    (∃ d : Device, d = setEntry 48 ⟨.claimed, some 3, 8, some .c, some 2, some 4, none⟩ { joined with
        asu := { joined.asu with need := { Need.idle with state := .won, target := some 48, kit := 9 } } } ∧
      (entryAt d 48).state = .claimed ∧ d.asu.need.state = .won ∧ d.asu.need.target = some 48 ∧
      (entryAt d 48).kit ≠ d.asu.need.kit ∧ (entryAt d 48).grade = some .c ∧ dockedHandler d ≠ some 48) ∧
    (idleDock.hpt.handler = some 5 ∧ idleDock.hpt.presence = .present) ∧
    (openLot testing = some (0, runningLot) ∧ runningLot.state = .running) ∧
    (dockedHandler testing = some 5 ∧ dockedHandler joined = none) := by
  refine ⟨fun x => ⟨_, rfl, ?_⟩, ⟨_, rfl, ?_⟩, ?_, ?_, ?_⟩
  · cases x <;> decide +kernel
  all_goals decide +kernel

/-- A need in each state with its lot in STAGING and none docked; a kit change in flight and none. -/
theorem witness_NeedStates : (∀ n : NeedState, ∃ d : Device,
      d = needing { Need.idle with state := n, target := some 48 } ∧ d.asu.need.state = n ∧
      d.asu.need.target = some 48 ∧ d.hpt.kitChange = none ∧
      ∃ l, stagingLot d = some (0, l) ∧ dockedHandler d = none) ∧
    (∃ d : Device, d = { joined with asu := { joined.asu with need := { Need.idle with state := .kitChange } } } ∧
      d.asu.need.state = .kitChange ∧ d.hpt.kitChange = none ∧ stagingLot d = none) ∧
    (∃ d : Device, d = { kitting with asu := { kitting.asu with need := { Need.idle with state := .kitChange } } } ∧
      d.asu.need.state = .kitChange ∧ d.hpt.kitChange ≠ none) := by
  refine ⟨fun n => ⟨_, rfl, rfl, rfl, rfl, _, rfl, rfl⟩, ⟨_, rfl, ?_⟩, ⟨_, rfl, ?_⟩⟩ <;> decide +kernel

/-- A full floor-hold table and one with room, with and without an own entry for the lot's program; the slot asked
for, superseded and not, in ACTIVE and in BARRED; a CLAIM sent in CLAIMING and in WON; each cell state of a STATUS. -/
theorem witness_FloorOperations :
    (lotAt testing 0 = some runningLot ∧ ownEntryFor testing 100 = none ∧ testing.hdu.table.length < 8) ∧
    (8 ≤ flooredFull.hdu.table.length) ∧
    (∃ e, floorEntry flooredCell 9 2 = some e ∧ e.program = 300) ∧ floorEntry flooredCell 31 255 = none ∧
    (∃ sl, attempting.fli.slot = some sl ∧ sl.removal = false ∧ attempting.fli.line ≠ .barred ∧
      ∀ e ∈ attempting.fli.queue, isSeek e.bulletin = false) ∧
    (∃ d : Device, d = { attempting with fli := { attempting.fli with
        line := .barred, queue := [⟨.seek 8 0, 4⟩], slot := some ⟨.seek 9 1, 3, none, true⟩ } } ∧
      d.fli.line = .barred ∧ d.fli.slot = some ⟨.seek 9 1, 3, none, true⟩ ∧ ∃ e ∈ d.fli.queue, e.bulletin = .seek 8 0) ∧
    (∀ n ∈ [NeedState.claiming, .won], ∃ d : Device, d = needing { Need.idle with state := n, target := some 48 } ∧
      d.asu.need.state = n ∧ d.asu.need.target = some 48 ∧ d.asu.need.claimSent = false) ∧
    (stagingLot starting = some (0, fresh) ∧ stagingLot joined = none ∧ openLot joined = none ∧
      stagingLot testing = none ∧ openLot testing = some (0, runningLot)) := by
  refine ⟨?_, ?_, ⟨_, rfl, rfl⟩, ?_, ⟨_, rfl, ?_⟩, ⟨_, rfl, rfl, rfl, _, List.mem_cons_self, rfl⟩,
    fun n _ => ⟨_, rfl, rfl, rfl, rfl⟩, ?_⟩ <;> decide +kernel


/-- A live device and one that is not; an idle docked handler, and one that is not idle for each reason; a QUERY second
that runs and one that does not, on each line. -/
theorem witness_SettleRounds : (live testing = true ∧ live bare = false ∧ handlerIdle idleDock = true ∧
    handlerIdle joined = false ∧ handlerIdle testing = false ∧ handlerIdle starting = false ∧
    handlerIdle (withLot 7 (queuedLot 13 2) idleDock) = false ∧
    handlerIdle (withLot 7 { queuedLot 13 2 with kit := 10 } idleDock) = true ∧
    (joined.tpt.link ≠ .up ∧ starting.tpt.link = .up ∧ anyOpen starting = false) ∧
    (testing.tpt.link = .up ∧ anyOpen testing = true) ∧ testing.hpt.presence ≠ .absent) ∧
    ∃ d : Device, d = { testing with hpt := { testing.hpt with presence := .absent } } ∧ d.hpt.presence = .absent :=
  ⟨by decide +kernel, _, rfl, rfl⟩

/-- The rows of R145, and the ends and parks of a need: in CLAIMING without a target, with one CLAIMED here and parked
or not, and in WON. -/
theorem witness_StagingReports :
    (stagingLot starting = some (0, fresh) ∧ starting.asu.staging = none ∧ fresh.id = 12 ∧ fresh.kit = 9) ∧
    (∃ d : Device, d = { starting with asu := { starting.asu with staging := some 12 } } ∧
      (stagingLot d).map (·.2.id) = d.asu.staging) ∧
    (∃ d : Device, d = { joined with asu := { joined.asu with staging := some 12 } } ∧ stagingLot d = none ∧
      d.asu.staging ≠ none) ∧
    (∀ (same : Bool) (n : NeedState), ∃ d : Device,
      d = { starting with asu := { starting.asu with
        staging := some 11, need := { Need.idle with state := n, kit := if same then 9 else 8 } } } ∧
      d.asu.staging ≠ none ∧ (stagingLot d).map (·.2.id) ≠ d.asu.staging ∧ d.asu.need.state = n ∧
      (d.asu.need.kit = fresh.kit ↔ same = true) ∧ d.asu.need.target = none) ∧
    (∀ parked : Bool, ∃ d : Device, d = setEntry 48
        ⟨.claimed, some 3, 9, some .a, some 2, if parked then some 31 else none, none⟩ { joined with
        asu := { joined.asu with need := { Need.idle with state := .claiming, target := some 48, kit := 9 } } } ∧
      d.asu.need.state = .claiming ∧ d.asu.need.target = some 48 ∧ (entryAt d 48).state = .claimed ∧
      (entryAt d 48).station = some (ownStation d) ∧ ((entryAt d 48).parkedBy = none ↔ parked = false)) ∧
    (∃ d : Device, d = { idleDock with
        asu := { idleDock.asu with need := { Need.idle with state := .won, target := some 48 } }
        tpm := { idleDock.tpm with grade := some .c } } ∧
      d.asu.need.state = .won ∧ anyOpen d = false ∧ d.tpm.grade = some .c) ∧
    anyOpen testing = true ∧ idleDock.asu.need.state ≠ .won ∧ idleDock.tpm.grade ≠ some .c := by
  refine ⟨?_, ⟨_, rfl, ?_⟩, ⟨_, rfl, ?_⟩, fun k n => ⟨_, rfl, by cases k <;> cases n <;> decide +kernel⟩,
    fun p => ⟨_, rfl, by cases p <;> decide +kernel⟩, ⟨_, rfl, ?_⟩, ?_⟩ <;> decide +kernel

/-- A MASK owed on a link that is UP and on one that is not, and none owed; a lot with the ID and none; each presence,
with a leaving timer that still runs for an earlier handler; the ends of the fault reference. -/
theorem witness_MaskAndDeparture :
    (armSent.tpt.mask[2] = .disabling ∧ armSent.tpt.arm.mask.getLsbD 2 = true ∧ armSent.tpt.link = .up ∧
      armSent.tpt.outstanding = []) ∧
    (∃ d : Device, d = { armSent with tpt := { armSent.tpt with link := .silent } } ∧ d.tpt.link ≠ .up) ∧
    (∀ k : Fin 8, testing.tpt.mask[k] ≠ .disabling) ∧
    (lotAt testing 0 = some runningLot ∧ runningLot.id = 11 ∧ ∀ i, ∀ l ∈ lotAt testing i, l.id ≠ 13) ∧
    (∀ p : Presence, p ≠ .leaving → ∃ d : Device,
      d = { testing with hpt := { testing.hpt with presence := p, leaving := some 0 } } ∧ live d = true ∧
      d.hpt.presence = p ∧ d.hpt.presence ≠ .leaving ∧ d.hpt.leaving ≠ none ∧ d.hpt.handler = some 5) ∧
    (leaving.hpt.presence = .leaving ∧ dockedHandler leaving = none ∧ leaving.hpt.handler = some 5) ∧
    (dockedHandler joined = none ∧ joined.hpt.handler = none ∧ dockedHandler testing = some 5) ∧
    (floorLive joined = true ∧ 4 ≠ ownStation joined ∧ dockedHandler joined ≠ some 48) := by
  refine ⟨?_, ⟨_, rfl, ?_⟩, ?_, ?_, fun p hp => ⟨_, rfl, rfl, rfl, hp, nofun, rfl⟩, ?_⟩ <;> decide +kernel

/-- R44: a BYE for a departed handler while another is PRESENT stops the leaving timer and nothing else. -/
theorem test_bye_departed : leaves .bye { testing with hpt := { testing.hpt with leaving := some 7 } } (fun e =>
    e.hpt.presence == .present && e.hpt.leaving == none && e.ctp.handlerBank.record == none) = true := by
  decide +kernel

/-- R138: kit 0 stands in a PARK. -/
theorem test_park_kit_0 : leaves (.parkReceived 4 48 0 1) joined (fun e =>
    entryAt e 48 == ⟨.free, none, 0, some .a, none, some 4, none⟩) = true := by decide +kernel

/-- R40, R209: a HELLO whose CRC passes with a payload length of 1 carries no ID (log 41). -/
theorem test_hello_length : handlerReceived (closeFrame [0x20, 0x01, 0x05]) = .handlerBadMessage true none := by
  decide +kernel

/-- R145: the same lot again is no report; another of the same kit gives the need its class. -/
theorem test_staging_replaced : ((stagingReport { starting with asu := { starting.asu with
    staging := some 11, need := { Need.idle with state := .won, kit := 9, cls := some 3 } } }).asu.need.cls == some 1)
      = true := by decide +kernel

theorem witness_FaultBankKeepsTheWorst : ∃ fs : List FaultRecord,
    fs = [⟨.note, .late, 0, 1⟩, ⟨.uncorrected, .saturated, 1, 2⟩, ⟨.uncorrected, .saturated, 2, 3⟩] ∧ fs ≠ [] ∧
    fs.foldl takeFault ⟨none, false⟩ = ⟨some ⟨.uncorrected, .saturated, 1, 2⟩, true⟩ := ⟨_, rfl, by decide, by decide⟩

/-- Every slot taken, no two of one sequence number; lot 1 is first in queue order. -/
theorem witness_QueueOrderAndRenumbering :
    (∀ i j, ∀ l ∈ lotAt full i, ∀ m ∈ lotAt full j, i ≠ j → l.seq ≠ m.seq) ∧
    (firstInQueueOrder full (fun _ => true)).map (·.1) = some 0 := by decide +kernel

theorem witness_NextTagAndNumberAreFree :
    (∃ d : Device, d = { flooredCell with hdu := { flooredCell.hdu with
        ownTag := 255, table := [⟨200, 3, 1, 4, false⟩], liftsInPlay := [2] } } ∧ d.hdu.ownTag ≤ 255 ∧
      d.hdu.table.length + d.hdu.holdsInPlay.length + d.hdu.liftsInPlay.length < 255 ∧ nextTag d = 3) ∧
    (∃ d : Device, d = { releasing with rlu := { releasing.rlu with counter := 65535 } } ∧ d.rlu.counter ≤ 65535 ∧
      d.rlu.records.length ≤ 6 ∧ nextNumber d = 5) := by
  refine ⟨⟨_, rfl, ?_⟩, _, rfl, ?_⟩ <;> decide +kernel

theorem witness_BulletinsAreReceivedAsSent : (31 < 32) ∧ HoldField.wf ⟨4095, 255, 15⟩ = true ∧
    HoldField.wf ⟨0, 0, 0⟩ = true ∧
    StatusField.wf ⟨255, 255, 255, 255, 255, List.replicate 5 ⟨255, 255, 255⟩, List.replicate 8 ⟨4095, 255, 15⟩⟩ = true := by
  decide +kernel

/-! The invariants hold of a cell that tests, and a command takes it to a next state. -/

theorem lots_testing : ∀ i, ∀ l ∈ lotAt testing i,
    LotBalances l ∧ (l.state = .held ↔ holdsLot l = true) ∧ HoldSetSound l ∧ (HasCell l → i = 0) ∧
    (MidInsertion l → l.opened = true) := by
  have h0 : lotAt testing 0 = some runningLot := by decide +kernel
  have h1 : lotAt testing 1 = some (queuedLot 12 2) := by decide +kernel
  have h2 : ∀ i, i ≠ 0 → i ≠ 1 → lotAt testing i = none := by decide +kernel
  intro i l hl
  by_cases a : i = 0
  · subst a
    obtain rfl : runningLot = l := Option.some.inj (h0.symm.trans hl)
    refine ⟨⟨by unfold Machine.Balanced; decide +kernel, fun m h => by cases h⟩, by decide, ⟨by decide, by decide⟩,
      fun _ => rfl, fun _ => rfl⟩
  · by_cases b : i = 1
    · subst b
      obtain rfl : queuedLot 12 2 = l := Option.some.inj (h1.symm.trans hl)
      refine ⟨⟨by unfold Machine.Balanced; decide +kernel, fun m h => by cases h⟩, by decide, ⟨by decide, by decide⟩, ?_, ?_⟩
      · rintro (h | h) <;> cases h
      · rintro (h | h | h | ⟨h, -⟩) <;> cases h
    · rw [Option.mem_def, h2 i a b] at hl; cases hl

theorem witness_EveryStepKeepsThePinsFollowing : PinsFollow testing := by
  refine ⟨?_, ?_, ?_⟩ <;> decide +kernel

theorem witness_EveryStepKeepsTheAccountsBalanced : AccountsBalance testing :=
  ⟨fun i l h => (lots_testing i l h).1, fun r h => by
    have : testing.rlu.records = [] := by decide +kernel
    rw [this] at h; cases h⟩

theorem witness_EveryStepKeepsHeldLotsHeld : HeldIffHolds testing ∧ HoldSetsSound testing :=
  ⟨fun i l h => (lots_testing i l h).2.1, fun i l h => (lots_testing i l h).2.2.1⟩

theorem witness_EveryStepKeepsOneCell : OneCell testing :=
  ⟨fun i j l m a b x y => ((lots_testing i l a).2.2.2.1 x).trans ((lots_testing j m b).2.2.2.1 y).symm,
    fun i l h => (lots_testing i l h).2.2.2.2⟩

theorem witness_EveryStepKeepsTheQueueSound : QueueSound attempting.fli := by
  unfold QueueSound InQueueOrder AgesSound
  refine ⟨by decide, ⟨by decide, by decide, fun sl h => ?_⟩, by decide⟩
  obtain rfl := Option.some.inj h
  decide

theorem witness_EveryStepKeepsTheScoreInRange : ScoreSound attempting := by
  unfold ScoreSound
  exact ⟨by decide, by decide, fun _ => by decide⟩

theorem witness_EveryStepKeepsTheParkedListSound : ∃ d : Device,
    d = joinParked 5 (setEntry 5 ⟨.free, none, 9, some .a, none, some 3, none⟩ joined) ∧ d.asu.parked = [5] ∧
    ParkedSound d := by
  refine ⟨_, rfl, by decide +kernel, by decide +kernel, by decide +kernel, by decide +kernel, fun h e => ?_, fun h e => ?_⟩
  · cases e
  · cases e

/-- A step exists from each of the states above. -/
theorem witness_steps : (∃ t, step ⟨[.down], testing⟩ = .next t) ∧ (∃ t, step ⟨[.transmitError], attempting⟩ = .next t) ∧
    ∃ t, step (st joined) = .next t := ⟨⟨_, rfl⟩, ⟨_, rfl⟩, ⟨_, rfl⟩⟩

/-- A command that touches no power-on reset and a warm reset, in JOINED; one in CONFIG that is not JOIN. -/
theorem witness_OnlyPowerOnLeavesJoined : (∃ t, exec .restart (st joined) = .next t) ∧
    touchesPowerOn .restart = false ∧ joined.ctp.device = .joined ∧ joined.ctp.hold ≠ .powerOn ∧
    (∃ t, exec (.configure fields) (st bare) = .next t) ∧ touchesPowerOn (.configure fields) = false ∧
    bare.ctp.device = .config := ⟨⟨_, rfl⟩, rfl, rfl, by decide, ⟨_, rfl⟩, rfl, rfl⟩

/-- CLEAR_FAULT of another bank, and a warm reset's end with one waiting. -/
theorem witness_UncorrectedRecordsStand : ∃ d : Device, d = { raise .floor .uncorrected .duplicateStation 3 joined with
      ctp := { (raise .floor .uncorrected .duplicateStation 3 joined).ctp with waiting := [.clearFault 2] } } ∧
    uncorrectedIn d .floor ∧ (∃ t, exec (.clearFault 4) (st d) = .next t) ∧
    (∀ b, (Instr.clearFault 4) = .clearFault b → bankOfCode b ≠ some .floor) ∧
    ∀ b, .clearFault b ∈ d.ctp.waiting → bankOfCode b ≠ some .floor := by
  refine ⟨_, rfl, by unfold uncorrectedIn; decide +kernel, ⟨_, rfl⟩, fun b h => ?_, fun b h => ?_⟩
  · injection h with h; subst h; decide
  · obtain rfl : b = 2 := by simpa [raise, setBank, joined] using h
    decide

end Sys2Proof.Tests
end

section
/-! The request frames of the cell terminal and the lot table, for R3 and R21: when a completing frame reaches its
owner, the first check of a request that fails, and which lot IDs and slots are taken. -/

namespace Sys2Proof.Machine

/-! ## Frames that complete (R195, R197, R200) -/

theorem exec_powerOnReset (byPin : Bool) (s : State) : exec (.powerOnReset byPin) s = .next (moved s
    (.powerOn .powerOn { s.dev.pins with resetPin := if byPin then .low else s.dev.pins.resetPin } s.dev.lines)) := rfl

theorem exec_join (s : State) : exec .join s = .next (moved s (onFrame .join joinRequest s.dev)) := rfl

theorem exec_admitLot (lotId product kit cls qty planCount : Nat) (plan : List PlanField) (s : State) :
    exec (.admitLot lotId product kit cls qty planCount plan) s = .next (moved s
      (onFrame (.admitLot lotId product kit cls qty planCount plan)
        (admitRequest lotId product kit cls qty planCount plan) s.dev)) := rfl

@[simp] theorem waitRequest_lmg (c : Instr) (d : Device) : (waitRequest c d).lmg = d.lmg := by
  unfold waitRequest
  split <;> rfl

@[simp] theorem waitRequest_device (c : Instr) (d : Device) : (waitRequest c d).ctp.device = d.ctp.device := by
  unfold waitRequest
  split <;> rfl

/-- A request frame is taken, waits or is lost, so a field that taking it and keeping it waiting leave alone stays. -/
theorem onFrame_keeps {α : Type} (f : Device → α) {c : Instr} {taken : Device → Device} {d : Device}
    (wait : f (waitRequest c d) = f d) (take : f (taken d) = f d) : f (onFrame c taken d) = f d := by
  unfold onFrame
  split
  case h_1 => rfl
  case h_2 => exact wait
  case h_3 => split <;> assumption

theorem onFrame_of_served {d : Device} (h : Served d) (c : Instr) (taken : Device → Device) :
    onFrame c taken d = taken d := by
  obtain ⟨running, noRestart⟩ := h
  simp [onFrame, running, noRestart]

theorem joinedOnly_of_config {d : Device} (h : d.ctp.device = .config) (n : Nat) (act : Device → Device) :
    joinedOnly n act d = respond ⟨n, .notReady, []⟩ d := by
  simp [joinedOnly, h, reply]

theorem joinedOnly_of_joined {d : Device} (h : d.ctp.device = .joined) (n : Nat) (act : Device → Device) :
    joinedOnly n act d = act d := by
  simp [joinedOnly, h]

/-! ## The checks of a request's fields (R196) -/

theorem inRange_eq_decide (lo hi n : Nat) : inRange lo hi n = decide (lo ≤ n ∧ n ≤ hi) :=
  (Bool.decide_and ..).symm

@[simp] theorem byte1_eq (n : Nat) : byte1 n = [BitVec.ofNat 8 n] := by simp [byte1, be]

theorem firstBad_eq_find (checks : List (Nat × Bool)) :
    firstBad checks = (checks.find? fun c => !c.2).map (·.1) := by
  induction checks with
  | nil => rfl
  | cons c rest ih =>
    obtain ⟨n, ok⟩ := c
    cases ok with
    | true => simpa [firstBad] using ih
    | false => simp [firstBad]

theorem firstBad_eq_none_iff {checks : List (Nat × Bool)} :
    firstBad checks = none ↔ ∀ c ∈ checks, c.2 = true := by
  simp [firstBad_eq_find]

theorem checkFields_of_some {checks : List (Nat × Bool)} {n : Nat} (h : firstBad checks = some n) (request : Nat)
    (act : Device → Device) (d : Device) :
    checkFields request checks act d = respond ⟨request, .badField, [BitVec.ofNat 8 n]⟩ d := by
  simp [checkFields, h, badField, reply]

theorem checkFields_of_none {checks : List (Nat × Bool)} (h : firstBad checks = none) (request : Nat)
    (act : Device → Device) (d : Device) : checkFields request checks act d = act d := by
  simp [checkFields, h]

/-! ## Lot IDs and slots in use (R1, R4) -/

theorem slotOfId_isSome_iff {d : Device} {id : Nat} :
    (slotOfId d id).isSome = true ↔ ∃ i l, lotAt d i = some l ∧ l.id = id := by
  simp [slotOfId, findLot, mem_slots, Option.any_eq_true]

/-- R1: a lot ID is held by a lot of the table or by a release record. -/
theorem idHeld_iff {d : Device} {id : Nat} : idHeld d id = true ↔
    (∃ i l, lotAt d i = some l ∧ l.id = id) ∨ ∃ r ∈ d.rlu.records, r.lotId = id := by
  simp [idHeld, slotOfId_isSome_iff]

theorem emptySlot_eq_none_iff {d : Device} : emptySlot d = none ↔ ∀ i, lotAt d i ≠ none := by
  simp [emptySlot, mem_slots]

/-! ## ADMIT (R3) -/

/-- R3, check 2: plan entry `j`, counted from 1, has the fields `3j + 4` to `3j + 6`. -/
theorem planChecks_eq_flatMap (j : Nat) (plan : List PlanField) : planChecks (3 * j + 4) plan =
    (plan.zipIdx j).flatMap (fun e => [(3 * e.2 + 4, decide (1 ≤ e.1.program ∧ e.1.program ≤ 4095)),
      (3 * e.2 + 5, decide (1 ≤ e.1.temp ∧ e.1.temp ≤ 3)), (3 * e.2 + 6, decide (e.1.retests ≤ 3))]) := by
  induction plan generalizing j with
  | nil => rfl
  | cons e rest ih =>
    have nextEntry : 3 * j + 4 + 3 = 3 * (j + 1) + 4 := by omega
    simp only [planChecks, isProgram, inRange_eq_decide, nextEntry, ih, List.zipIdx_cons, List.flatMap_cons,
      List.cons_append, List.nil_append]

section
variable {lotId product kit cls qty planCount : Nat} {plan : List PlanField} {d : Device}

theorem admitRequest_of_config (h : d.ctp.device = .config) :
    admitRequest lotId product kit cls qty planCount plan d = respond ⟨7, .notReady, []⟩ d :=
  joinedOnly_of_config h ..

theorem admitRequest_of_badField (h : d.ctp.device = .joined) {n : Nat}
    (bad : firstBad (admitChecks lotId product kit cls qty planCount plan) = some n) :
    admitRequest lotId product kit cls qty planCount plan d = respond ⟨7, .badField, [BitVec.ofNat 8 n]⟩ d :=
  (joinedOnly_of_joined h ..).trans (checkFields_of_some bad ..)

theorem admitRequest_of_duplicate (h : d.ctp.device = .joined)
    (good : firstBad (admitChecks lotId product kit cls qty planCount plan) = none) (held : idHeld d lotId = true) :
    admitRequest lotId product kit cls qty planCount plan d = respond ⟨7, .duplicate, []⟩ d := by
  simp [admitRequest, joinedOnly_of_joined h, checkFields_of_none good, held, reply]

theorem admitRequest_of_full (h : d.ctp.device = .joined)
    (good : firstBad (admitChecks lotId product kit cls qty planCount plan) = none) (new : idHeld d lotId = false)
    (full : emptySlot d = none) :
    admitRequest lotId product kit cls qty planCount plan d = respond ⟨7, .full, []⟩ d := by
  simp [admitRequest, joinedOnly_of_joined h, checkFields_of_none good, new, full, reply]

end

/-- Settles O14: each refusal is one case of `admitRequest`, and the model's checks are those R3 lists. -/
theorem admitRefusalsInOrder : Obligations.AdmitRefusalsInOrder := by
  intro lotId product kit cls qty planCount plan s served
  simp only [exec_admitLot, onFrame_of_served served]
  refine ⟨admitChecks lotId product kit cls qty planCount plan, ?listed, ?notReady, ?badField, ?duplicate, ?full⟩
  case listed => simp only [admitChecks, inRange_eq_decide, ← planChecks_eq_flatMap 1]
  case notReady =>
    intro config
    rw [admitRequest_of_config config]
  case badField =>
    intro joined n bad
    rw [admitRequest_of_badField joined ((firstBad_eq_find _).trans bad)]
  case duplicate =>
    intro joined good held
    rw [admitRequest_of_duplicate joined (firstBad_eq_none_iff.2 good) (idHeld_iff.2 held)]
  case full =>
    intro joined good noLot noRecord noSlot
    have new : idHeld s.dev lotId = false := by
      rw [← Bool.not_eq_true, idHeld_iff]
      rintro (⟨i, l, here, same⟩ | ⟨r, here, same⟩)
      · exact noLot i l here same
      · exact noRecord r here same
    rw [admitRequest_of_full joined (firstBad_eq_none_iff.2 good) new (emptySlot_eq_none_iff.2 noSlot)]

/-! ## The power-on reset (R21) -/

theorem lotAt_powerOn (hold : ResetHold) (p : Pins) (n : Lines) (i : Fin 8) : lotAt (.powerOn hold p n) i = none := by
  simp [lotAt, Device.powerOn, Lmg.reset]

theorem joinRequest_of_unconfigured {d : Device} (h : d.ctp.device = .config) (unconfigured : d.ctp.config = none) :
    joinRequest d = respond ⟨2, .notReady, []⟩ d := by
  simp [joinRequest, h, unconfigured, reply]

/-- Settles O4: the reset builds the lot table afresh, and in CONFIG neither ADMIT nor an unconfigured JOIN does
more than answer, wait or be lost. -/
theorem powerOnResetEmptiesTheLotTable : Obligations.PowerOnResetEmptiesTheLotTable := by
  refine ⟨?emptied, ?admitRefused, ?joinRefused⟩
  case emptied =>
    intro byPin s
    exact ⟨_, exec_powerOnReset byPin s, fun i => lotAt_powerOn _ _ _ i, rfl, rfl, rfl⟩
  case admitRefused =>
    intro lotId product kit cls qty planCount plan s config
    refine ⟨_, exec_admitLot .., onFrame_keeps (·.lmg) (waitRequest_lmg ..) ?_⟩
    simp only [admitRequest_of_config config, respond_lmg]
  case joinRefused =>
    intro s config unconfigured
    refine ⟨_, exec_join s, (onFrame_keeps (·.ctp.device) (waitRequest_device ..) ?_).trans config⟩
    simp only [joinRequest_of_unconfigured config unconfigured, respond_ctp]

end Sys2Proof.Machine
end

section
/-! The messages of the tester, for R22 and R34: what TPT does with a message that has a field out of its range, and
what the range check of a TOUCHDOWN says. -/

namespace Sys2Proof.Machine

/-! ## Tester messages refused (R22) -/

@[simp] theorem testerHeard_lmg (d : Device) : (testerHeard d).lmg = d.lmg := rfl

theorem onTester_of_bad {d : Device} {ok : Bool} (running : live d = true) (bad : ok = false)
    (act : Device → Device) :
    onTester ok act d = settle (raise .tester .note .badMessage 255 (testerHeard d)) := by
  simp [onTester, running, bad, testerBad]

/-! ## TOUCHDOWN (R34) -/

theorem exec_touchdown (repeats entryCount : Nat) (entries : List (Nat × Nat)) (s : State) :
    exec (.touchdown repeats entryCount entries) s = .next (moved s
      (onTester (touchdownOk repeats entryCount entries) (touchdown (expandTouchdown repeats entries)) s.dev)) := rfl

theorem noRepeat_iff_nodup {xs : List Nat} : noRepeat xs = true ↔ xs.Nodup := by
  induction xs with
  | nil => simp [noRepeat]
  | cons x xs ih => simp [noRepeat, ih]

/-- R34: the list, the repeat count and the payload length of a TOUCHDOWN that is not refused. -/
theorem touchdownOk_iff {repeats entryCount : Nat} {entries : List (Nat × Nat)} :
    touchdownOk repeats entryCount entries = true ↔
      (1 ≤ entryCount ∧ entryCount ≤ 8) ∧ entries.length = entryCount ∧ (1 ≤ repeats ∧ repeats ≤ 16) ∧
      (∀ e ∈ entries, e.1 ≤ 7 ∧ e.2 ≤ 15) ∧ (entries.map (·.1)).Nodup := by
  simp only [touchdownOk, inRange_eq_decide, noRepeat_iff_nodup, List.all_eq_true, Bool.and_eq_true, beq_iff_eq,
    decide_eq_true_eq, and_assoc]

/-- Settles O23: a touchdown that passed the range check would meet none of the reasons of R34. -/
theorem touchdownIsRefusedWhole : Obligations.TouchdownIsRefusedWhole := by
  intro repeats entryCount entries s running reason
  have refused : touchdownOk repeats entryCount entries = false := by
    rw [← Bool.not_eq_true, touchdownOk_iff]
    rintro ⟨⟨countLow, countHigh⟩, lengthIs, ⟨repeatsLow, repeatsHigh⟩, ranges, nodup⟩
    obtain empty | tooMany | siteTwice | ⟨e, listed, siteHigh⟩ | ⟨e, listed, binHigh⟩ | noRepeats | tooOften |
      wrongLength := reason
    · exact absurd countLow (by simp [← lengthIs, empty])
    · omega
    · exact siteTwice nodup
    · exact absurd (ranges e listed).1 (by omega)
    · exact absurd (ranges e listed).2 (by omega)
    · omega
    · omega
    · exact wrongLength lengthIs
  refine ⟨?_, by simp only [raise_lmg, testerHeard_lmg]⟩
  rw [exec_touchdown, onTester_of_bad running refused]

end Sys2Proof.Machine
end

section
/-! What RAU does with one result, for R64 and R67: the outcomes of `rauResult` that drop a result, the retest result
that it counts, and the fault bank that FEED does not read. -/

namespace Sys2Proof.Machine

/-! ## The fault banks and FEED (R55, R206) -/

theorem takeFault_overFlag_of_record {b : FaultBank} (h : b.record ≠ none) (f : FaultRecord) :
    (takeFault b f).overFlag = true := by
  obtain ⟨r, hr⟩ := Option.ne_none_iff_exists'.1 h
  simp only [takeFault, hr]
  split <;> rfl

theorem openLot_of_lmg {d e : Device} (h : d.lmg = e.lmg) : openLot d = openLot e := by
  simp only [openLot, lotList, lotAt_of_lmg h]

/-- R55 reads the HANDLER and the TESTER bank alone. -/
theorem gateFor_of_banks {d e : Device} (handler : bank d .handler = bank e .handler)
    (tester : bank d .tester = bank e .tester) (tpt : d.tpt = e.tpt) (hpt : d.hpt = e.hpt) (l : Lot) :
    gateFor d l = gateFor e l := by
  simp only [bank] at handler tester
  simp only [gateFor, armedFor, soakedAt, handler, tester, tpt, hpt]

theorem feedGate_raise_accounting (v : Severity) (c : FaultCode) (r : Nat) (d : Device) :
    feedGate (raise .accounting v c r d) = feedGate d := by
  have gate (l : Lot) : gateFor (raise .accounting v c r d) l = gateFor d l :=
    gateFor_of_banks (by simp) (by simp) (raise_tpt ..) (raise_hpt ..) l
  simp only [feedGate, gate, openLot_of_lmg (raise_lmg ..),
    live_of_ctp (raise_ctp_device .accounting v c r d) (raise_ctp_hold ..)]

/-! ## A counted retest result (R66) -/

@[simp] theorem placeUnit_t1 (c : ConfigBlock) (l : Lot) (k : Nat) (b : Fin 16) (a : Accum) :
    (placeUnit c l k b a).t1 = a.t1 := by
  unfold placeUnit
  split <;> rfl

@[simp] theorem placeUnit_pendingNow (c : ConfigBlock) (l : Lot) (k : Nat) (b : Fin 16) (a : Accum) :
    (placeUnit c l k b a).pendingNow = a.pendingNow := by
  unfold placeUnit
  split <;> rfl

@[simp] theorem retestAcc_t1 (c : ConfigBlock) (l : Lot) (b : Fin 16) (a : Accum) :
    (retestAcc c l b a).t1 = a.t1 := by simp [retestAcc]

@[simp] theorem retestAcc_pendingNow (c : ConfigBlock) (l : Lot) (b : Fin 16) (a : Accum) :
    (retestAcc c l b a).pendingNow = a.pendingNow - 1 := by simp [retestAcc]

/-! ## The outcomes of a result (R62) -/

section
variable {i k : Fin 8} {b : Fin 16} {l : Lot} {d : Device}

theorem rauResult_of_saturated (here : lotAt d i = some l) (first : l.acc.countingPass = 0)
    (full : Config.countTop ≤ l.acc.t1) : rauResult i k b d =
      raise .accounting .uncorrected .saturated i.val (putLot i (some (setSaturated l)) d) := by
  simp only [rauResult, here, first, full, if_true, modifyLot_some setSaturated here]

theorem rauResult_of_stray (here : lotAt d i = some l) (retest : l.acc.countingPass ≠ 0)
    (noneOwed : l.acc.pendingNow = 0) : rauResult i k b d =
      raise .accounting .note .stray i.val (putLot i (some (setStray l)) d) := by
  simp only [rauResult, here, retest, noneOwed, if_false, if_true, modifyLot_some setStray here]

theorem rauResult_of_owed (here : lotAt d i = some l) (retest : l.acc.countingPass ≠ 0)
    (owed : 0 < l.acc.pendingNow) : rauResult i k b d =
      tpmCount (stuResult i k b (putLot i (some { l with acc := retestAcc (cfg d) l b l.acc }) d)) := by
  simp only [rauResult, here, retest, owed.ne', if_false, modifyLot_some _ here]

end

/-- R64, R206: a result dropped at the ceiling sets OVER where the bank holds a record already. -/
theorem rauResult_overFlag_of_saturated {i : Fin 8} {l : Lot} {d : Device} (here : lotAt d i = some l)
    (first : l.acc.countingPass = 0) (full : Config.countTop ≤ l.acc.t1)
    (taken : d.ctp.accountingBank.record ≠ none) (k : Fin 8) (b : Fin 16) :
    (rauResult i k b d).ctp.accountingBank.overFlag = true := by
  rw [rauResult_of_saturated here first full]
  exact takeFault_overFlag_of_record taken _

/-- Settles O42: the counting pass, T1 and the units owed choose the outcome of `rauResult`, never the bin. -/
theorem saturatedAndStrayResultsAreDropped : Obligations.SaturatedAndStrayResultsAreDropped := by
  refine ⟨fun i k b l d here => ⟨?ceiling, ?retest, ?stray⟩, feedGate_raise_accounting⟩
  case ceiling =>
    intro first atTop
    have full : Config.countTop ≤ l.acc.t1 := atTop.ge
    exact ⟨rauResult_of_saturated here first full,
      fun taken => rauResult_overFlag_of_saturated here first full taken k b⟩
  case retest =>
    intro retest atTop owed
    refine ⟨_, _, lotAt_putLot_same .., ?t1, ?pendingNow, rauResult_of_owed here retest owed⟩
    case t1 => simpa only [retestAcc_t1] using atTop
    case pendingNow => simp only [retestAcc_pendingNow]
  case stray => exact fun retest noneOwed => rauResult_of_stray here retest noneOwed

end Sys2Proof.Machine
end

section
/-! The end of a sample period at TPM, for R105 to R108 and R110: the outcome of a sample, what it makes of the grade
and the two counts, and the report of a changed grade to the handler table. -/

namespace Sys2Proof.Machine

/-! ## A timer that runs out (R101) -/

theorem exec_periodEnd (s : State) : exec .periodEnd s = .next (moved s
    (onTimer s.dev.tpm.period.isSome (fun d =>
      reportIfChanged d.tpm.grade (setTpm (fun t => endSample (cfg d) t (now d)) d)) s.dev)) := rfl

theorem onTimer_of_running {d : Device} {running : Bool} (alive : live d = true) (runs : running = true)
    (act : Device → Device) : onTimer running act d = settle (act d) := by
  simp [onTimer, alive, runs]

/-! ## The outcome of a sample (R105, R106) -/

theorem degraded_iff {c : ConfigBlock} {uph jams : Nat} :
    degraded c uph jams = true ↔ uph < c.minUph ∨ c.jamLimit ≤ jams := by
  simp [degraded]

theorem judgeSample_outcome (c : ConfigBlock) (t : Tpm) :
    (judgeSample c t).1 = if t.gateOn < c.samplePeriod * 1000 / 2 then .skipped
      else if uphOf t.results t.gateOn < c.minUph ∨ c.jamLimit ≤ t.jams then .degraded else .good := by
  by_cases short : t.gateOn < c.samplePeriod * 1000 / 2
  case pos => simp only [judgeSample, halfPeriod, short, if_true]
  case neg => simp only [judgeSample, halfPeriod, short, if_false, degraded_iff]

/-- R105: a sample has a UPH unless it is skipped. -/
theorem judgeSample_uph (c : ConfigBlock) (t : Tpm) :
    (judgeSample c t).2 = if (judgeSample c t).1 = .skipped then none else some (uphOf t.results t.gateOn) := by
  by_cases short : t.gateOn < halfPeriod c
  case pos => simp [judgeSample, short]
  case neg => cases bad : degraded c (uphOf t.results t.gateOn) t.jams <;> simp [judgeSample, short, bad]

/-! ## The grade and its counts (R107) -/

/-- R107: grade, degrade count and recover count after a sample, for a known grade; `applySample_eq` ties it to the
model. -/
def gradeAndCounts (o : SampleOutcome) (g : Grade) (degrade recover : Nat) : Grade × Nat × Nat :=
  match o with
  | .degraded => if degrade < 2 then (g, degrade + 1, 0) else (gradeDown g, 0, 0)
  | .good => if recover < 7 then (g, 0, recover + 1) else (gradeUp g, 0, 0)
  | .skipped | .none => (g, degrade, recover)

theorem applySample_eq {t : Tpm} {g : Grade} (known : t.grade = some g) (o : SampleOutcome) :
    applySample o t = { t with
      grade := some (gradeAndCounts o g t.degrade t.recover).1
      degrade := (gradeAndCounts o g t.degrade t.recover).2.1
      recover := (gradeAndCounts o g t.degrade t.recover).2.2 } := by
  cases o with
  | none | skipped => simp only [applySample, gradeAndCounts, ← known]
  | degraded =>
    by_cases more : t.degrade < 2
    · simp only [applySample, gradeAndCounts, more, if_true, ← known]
    · simp only [applySample, gradeAndCounts, more, if_false, known, Option.map_some]
  | good =>
    by_cases more : t.recover < 7
    · simp only [applySample, gradeAndCounts, more, if_true, ← known]
    · simp only [applySample, gradeAndCounts, more, if_false, known, Option.map_some]

/-! ## The new period and the report (R108, R110) -/

theorem endSample_eq {t : Tpm} {g : Grade} (known : t.grade = some g) (c : ConfigBlock) (time : Nat) {o : SampleOutcome}
    (judged : (judgeSample c t).1 = o) : endSample c t time = { t with
      grade := some (gradeAndCounts o g t.degrade t.recover).1
      degrade := (gradeAndCounts o g t.degrade t.recover).2.1
      recover := (gradeAndCounts o g t.degrade t.recover).2.2
      period := some 0, results := 0, gateOn := 0, jams := 0
      last := ⟨o, t.sampled, t.results, t.gateOn, t.jams,
        if o = .skipped then none else some (uphOf t.results t.gateOn), time⟩ } := by
  simp only [endSample, judgeSample_uph, judged, applySample_eq known]

theorem endSample_grade {t : Tpm} {g : Grade} (known : t.grade = some g) (c : ConfigBlock) (time : Nat) :
    (endSample c t time).grade = some (gradeAndCounts (judgeSample c t).1 g t.degrade t.recover).1 := by
  rw [endSample_eq known c time rfl]

/-- R108: TPM's own update leaves the dock record and the handler table alone. -/
theorem reportIfChanged_setTpm {d : Device} {h : Nat} {g : Grade} {f : Tpm → Tpm} (docked : dockedHandler d = some h)
    (known : (f d.tpm).grade = some g) (before : Grade) : reportIfChanged (some before) (setTpm f d) =
      if g = before then setTpm f d else setEntry h { entryAt d h with grade := some g } (setTpm f d) := by
  have stillDocked : dockedHandler (setTpm f d) = some h := docked
  have newGrade : (setTpm f d).tpm.grade = some g := known
  simp only [reportIfChanged, stillDocked, newGrade, Option.some.injEq, eq_comm (a := before)]
  rfl

/-- Settles O32: the period's timer runs in a live device, so the sample is ended and its grade reported. -/
theorem periodEndJudgesTheSample : Obligations.PeriodEndJudgesTheSample := by
  intro s h g alive runs docked known
  refine ⟨(judgeSample (cfg s.dev) s.dev.tpm).1, uphOf s.dev.tpm.results s.dev.tpm.gateOn,
    gradeAndCounts (judgeSample (cfg s.dev) s.dev.tpm).1 g s.dev.tpm.degrade s.dev.tpm.recover, _,
    rfl, judgeSample_outcome .., ?table, rfl, ?moves⟩
  case table =>
    cases (judgeSample (cfg s.dev) s.dev.tpm).1 with
    | none | skipped => rfl
    | degraded | good => cases g <;> rfl
  case moves =>
    rw [exec_periodEnd, onTimer_of_running alive (Option.isSome_iff_ne_none.2 runs), known,
      reportIfChanged_setTpm (f := fun t => endSample (cfg s.dev) t (now s.dev)) docked (endSample_grade known ..)]
    simp only [setTpm, endSample_eq known _ _ rfl]

end Sys2Proof.Machine
end

section
/-! CONFIGURE and JOIN, for R198 and R199: the two requests by the device state, the verdict on the fields and the block
held. -/

namespace Sys2Proof.Machine

theorem exec_configure (fields : List CfgField) (s : State) : exec (.configure fields) s = .next (moved s
    (onFrame (.configure fields) (configureRequest fields) s.dev)) := rfl

/-! ## CONFIGURE (R198) -/

section
variable {d : Device} {fields : List CfgField}

theorem configureRequest_of_joined (h : d.ctp.device = .joined) :
    configureRequest fields d = respond ⟨1, .locked, []⟩ d := by
  simp [configureRequest, h, reply]

theorem configureRequest_of_badField (h : d.ctp.device = .config) {n : Nat} (bad : checkConfig fields = .inl n) :
    configureRequest fields d = respond ⟨1, .badField, [BitVec.ofNat 8 n]⟩ d := by
  simp [configureRequest, h, bad, badField, reply]

theorem configureRequest_of_block (h : d.ctp.device = .config) {b : ConfigBlock} (good : checkConfig fields = .inr b) :
    configureRequest fields d = respond ⟨1, .ok, []⟩ { d with ctp := { d.ctp with config := some b } } := by
  simp [configureRequest, h, good, reply, setCtp]

end

/-! ## JOIN (R199) -/

section
variable {d : Device}

theorem cfg_of_config {c : ConfigBlock} (held : d.ctp.config = some c) : cfg d = c := by
  simp [cfg, held]

theorem joinRequest_of_joined (h : d.ctp.device = .joined) : joinRequest d = respond ⟨2, .badState, []⟩ d := by
  simp [joinRequest, h, reply]

/-- R199: what JOIN makes of a device in CONFIG that holds the block `c`, before the blocks check anything. -/
def joinedDevice (c : ConfigBlock) (d : Device) : Device :=
  { d with
    ctp := { d.ctp with device := .joined, joinClock := 0 }
    fli := { d.fli with line := .listen, statusTimer := some (c.statusPeriod * 1000) }
    lines := { d.lines with
      testerOut := d.lines.testerOut ++ [.query], handlerOut := d.lines.handlerOut ++ [.query] } }

theorem enterListen_of_config {c : ConfigBlock} (held : d.ctp.config = some c) : enterListen d =
    { d with fli := { d.fli with line := .listen, statusTimer := some (c.statusPeriod * 1000) } } := by
  rw [enterListen, cfg_of_config held, seconds]

/-- The status period is that of the held block, which JOIN leaves as it is. -/
theorem joinRequest_of_config (h : d.ctp.device = .config) {c : ConfigBlock} (held : d.ctp.config = some c) :
    joinRequest d = respond ⟨2, .ok, []⟩ (settle (joinedDevice c d)) := by
  have stillHeld : (setCtp (fun t => { t with device := .joined, joinClock := 0 }) d).ctp.config = some c := held
  have started : sendHandler .query (sendTester .query (enterListen
      (setCtp (fun t => { t with device := .joined, joinClock := 0 }) d))) = joinedDevice c d := by
    rw [enterListen_of_config stillHeld]
    rfl
  simp only [joinRequest, h, held, reduceCtorEq, if_false, reply, started]

end

/-- Settles O8: a served frame is taken at once, and each clause is one case of `configureRequest` or of
`joinRequest`. -/
theorem configureAndJoin : Obligations.ConfigureAndJoin := by
  refine ⟨fun fields s served => ?configure, fun s served => ?join⟩
  case configure =>
    rw [exec_configure, onFrame_of_served served]
    refine ⟨?joined, ?badField, ?replaced⟩
    case joined =>
      intro joined
      rw [configureRequest_of_joined joined]
    case badField =>
      intro n config bad
      rw [configureRequest_of_badField config bad]
    case replaced =>
      intro b config good
      rw [configureRequest_of_block config good]
  case join =>
    rw [exec_join, onFrame_of_served served]
    refine ⟨?again, ?unconfigured, ?joins⟩
    case again =>
      intro joined
      rw [joinRequest_of_joined joined]
    case unconfigured =>
      intro config unconfigured
      rw [joinRequest_of_unconfigured config unconfigured]
    case joins =>
      intro c config held
      rw [joinRequest_of_config config held, joinedDevice]

end Sys2Proof.Machine
end

section
/-! `Keeps` for counting, the statistics and the close computation (chapters 4 and 5), for O53 to O60; and that the
counting rules and the close keep the balance (R61, R69, R70). -/

namespace Sys2Proof.Machine

variable {P : Prop}

/-! ## Sums over the bins (R61, R69) -/

theorem foldl_cond_add (a : Accum) (p : Fin 16 → Bool) (bins : List (Fin 16)) (n : Nat) :
    bins.foldl (fun n b => if p b then n + a.final[b] else n) n =
      n + (bins.map fun b => if p b then a.final[b] else 0).sum := by
  induction bins generalizing n with
  | nil => rfl
  | cons b bins ih =>
    rw [List.foldl_cons, ih, List.map_cons, List.sum_cons]
    split <;> omega

theorem finalSum_eq_sum (a : Accum) (p : Fin 16 → Bool) :
    finalSum a p = ∑ b, if p b then a.final[b] else 0 := by
  rw [finalSum, foldl_cond_add, Nat.zero_add, Fin.sum_univ_def]
  rfl

/-- A unit placed in FINAL[b] raises the sum of FINAL by 1. -/
theorem finalSum_addTo (a : Accum) (b : Fin 16) :
    finalSum { a with final := addTo a.final b } (fun _ => true) = finalSum a (fun _ => true) + 1 := by
  have unit : ∀ c : Fin 16, (addTo a.final b)[c] = a.final[c] + if c = b then 1 else 0 := by
    intro c
    simp only [addTo, Fin.getElem_fin, Vector.getElem_set, ← Fin.ext_iff, eq_comm (a := b)]
    split <;> simp_all
  simp only [finalSum_eq_sum, unit, if_true, Finset.sum_add_distrib, Finset.sum_ite_eq', Finset.mem_univ]

theorem binClass_eq_none_iff (c : ConfigBlock) (b : Fin 16) : binClass c b = none ↔ b = 0 := by
  simp only [binClass, binSetting, Option.map_eq_none_iff, dite_eq_right_iff, reduceCtorEq, imp_false, Fin.ext_iff]
  simp

/-- Good, reject and bin 0 are the whole of FINAL (R69): every bin but 0 has a class. -/
theorem good_add_reject_add_lost (c : ConfigBlock) (a : Accum) :
    closeGood c a + closeReject c a + a.final[0] = finalSum a fun _ => true := by
  have lost : a.final[0] = ∑ b : Fin 16, if b = 0 then a.final[b] else 0 := by
    rw [Finset.sum_ite_eq' Finset.univ (0 : Fin 16)]; rfl
  simp only [closeGood, closeReject, finalSum_eq_sum]
  rw [lost, ← Finset.sum_add_distrib, ← Finset.sum_add_distrib]
  refine Finset.sum_congr rfl fun b _ => ?_
  have none_iff := binClass_eq_none_iff c b
  cases h : binClass c b with
  | none => simp [none_iff.1 h]
  | some cls =>
    have : b ≠ 0 := fun e => by simp [none_iff.2 e] at h
    cases cls <;> simp [this]

/-! ## The balance (R61, R70) -/

theorem balanced_placeUnit (c : ConfigBlock) (l : Lot) (k : Nat) (b : Fin 16) (a : Accum)
    (owed : finalSum a (fun _ => true) + a.pendingNow + a.pendingNext + a.unretested + 1 = a.t1)
    (top : a.t1 ≤ Config.countTop) : Balanced (placeUnit c l k b a) := by
  unfold placeUnit
  split
  · refine ⟨?_, top⟩
    show finalSum a _ + a.pendingNow + (a.pendingNext + 1) + a.unretested = a.t1
    omega
  · refine ⟨?_, top⟩
    rw [finalSum_addTo]
    show _ + 1 + a.pendingNow + a.pendingNext + a.unretested = a.t1
    omega

theorem balanced_firstPassAcc (c : ConfigBlock) (l : Lot) (b : Fin 16) {a : Accum} (h : Balanced a)
    (below : a.t1 < Config.countTop) : Balanced (firstPassAcc c l b a) :=
  balanced_placeUnit _ _ _ _ _ (congrArg (· + 1) h.1) below

theorem balanced_retestAcc (c : ConfigBlock) (l : Lot) (b : Fin 16) {a : Accum} (h : Balanced a)
    (owed : 0 < a.pendingNow) : Balanced (retestAcc c l b a) := by
  obtain ⟨sum, top⟩ := h
  refine balanced_placeUnit _ _ _ _ _ ?_ top
  show finalSum a _ + (a.pendingNow - 1) + a.pendingNext + a.unretested + 1 = a.t1
  omega

theorem balanced_passBoundary {a : Accum} (h : Balanced a) : Balanced (passBoundary a) := by
  obtain ⟨sum, top⟩ := h
  refine ⟨?_, top⟩
  show finalSum a _ + a.pendingNext + 0 + (a.unretested + a.pendingNow) = a.t1
  omega

theorem balanced_settleAcc {a : Accum} (h : Balanced a) : Balanced (settleAcc a) := by
  obtain ⟨sum, top⟩ := h
  refine ⟨?_, top⟩
  show finalSum a _ + 0 + 0 + (a.unretested + a.pendingNow + a.pendingNext) = a.t1
  omega

/-- R70: what the close computation makes of a balanced set adds up. -/
theorem closeBalances_of_balanced (c : ConfigBlock) (qIn : Nat) {a : Accum} (h : Balanced a)
    (settled : a.pendingNow = 0 ∧ a.pendingNext = 0) :
    closeGood c a + closeReject c a + closeMissing qIn a = qIn + closeExcess qIn a := by
  have whole := good_add_reject_add_lost c a
  have sum := h.1
  rw [settled.1, settled.2] at sum
  simp only [closeMissing, closeShortfall, closeExcess]
  omega

theorem lotBalances_closeLot (c : ConfigBlock) (t : Nat) {l : Lot} (h : LotBalances l) :
    LotBalances (closeLot c t l) := by
  have settled := balanced_settleAcc h.1
  refine ⟨settled, fun m hm => ?_⟩
  obtain rfl := Option.some.inj hm
  exact closeBalances_of_balanced c l.qIn settled ⟨rfl, rfl⟩

theorem lotStep_closeLot (c : ConfigBlock) (t : Nat) (l : Lot) : LotStep P l (closeLot c t l) :=
  ⟨⟨lotBalances_closeLot c t, id, fun _ _ => id, fun _ => id⟩, id⟩

/-! ## The site mask (R32) -/

theorem keeps_sendMask (d : Device) : Keeps P d (sendMask d) :=
  (keeps_sendTester ..).trans (keeps_setTpt ..)

theorem keeps_disableSite (s : Fin 8) (d : Device) : Keeps P d (disableSite s d) := by
  unfold disableSite
  dsimp only
  split
  · exact (keeps_setSite ..).trans (keeps_sendMask _)
  · exact keeps_setSite ..

/-! ## Statistics (R84 to R96) -/

theorem keeps_modifyStats (i : Fin 8) (f : Stats → Stats) (d : Device) : Keeps P d (modifyStats i f d) :=
  keeps_modifyLot _ _ _ fun _ _ => lotStep_of_eq rfl rfl rfl rfl rfl rfl rfl

theorem keeps_clearRun (i s : Fin 8) (d : Device) : Keeps P d (clearRun i s d) := keeps_modifyStats ..

theorem keeps_siteRunCheck (i s : Fin 8) (d : Device) : Keeps P d (siteRunCheck i s d) := by
  unfold siteRunCheck
  split
  · exact .refl d
  split
  · exact .refl d
  split
  · split
    · exact ((keeps_disableSite ..).trans (keeps_raise ..)).trans (keeps_clearRun ..)
    · exact (keeps_holdRequest ..).trans (keeps_clearRun ..)
  · exact keeps_clearRun ..
  · exact .refl d

theorem keeps_windowYieldCheck (i : Fin 8) (low : Bool) (d : Device) : Keeps P d (windowYieldCheck i low d) := by
  unfold windowYieldCheck
  split
  · split
    · exact keeps_floorRequest ..
    · exact keeps_holdRequest ..
  · exact .refl d

theorem keeps_binRequest (i : Fin 8) (b : Fin 16) (d : Device) : Keeps P d (binRequest i b d) := by
  unfold binRequest
  split
  · exact keeps_floorRequest ..
  · exact keeps_holdRequest ..

theorem keeps_deltaCheck (i : Fin 8) (site : Option (Fin 8)) (d : Device) : Keeps P d (deltaCheck i site d) := by
  unfold deltaCheck
  split
  · exact keeps_holdRequest ..
  · exact .refl d

theorem keeps_windowClose (i : Fin 8) (d : Device) : Keeps P d (windowClose i d) := by
  unfold windowClose
  split
  · exact .refl d
  · exact ((((keeps_modifyStats ..).trans (keeps_windowYieldCheck ..)).trans
      (keeps_foldl _ (fun d b => keeps_binRequest i b d) _ _)).trans (keeps_deltaCheck ..)).trans
      (keeps_modifyStats ..)

theorem keeps_countWindow (i : Fin 8) (isPass : Bool) (d : Device) : Keeps P d (countWindow i isPass d) := by
  unfold countWindow
  dsimp only
  generalize counted : modifyStats i _ d = e
  have k : Keeps P d e := counted ▸ keeps_modifyStats ..
  split
  · exact k
  split
  · exact k.trans (keeps_windowClose ..)
  · exact k

theorem keeps_stuResult (i s : Fin 8) (b : Fin 16) (d : Device) : Keeps P d (stuResult i s b d) := by
  unfold stuResult
  split
  · exact .refl d
  split
  · exact .refl d
  dsimp only
  split
  · exact (keeps_modifyStats ..).trans (keeps_countWindow ..)
  · exact ((keeps_modifyStats ..).trans (keeps_siteRunCheck ..)).trans (keeps_countWindow ..)

theorem keeps_partialWindow (i : Fin 8) (d : Device) : Keeps P d (partialWindow i d) := by
  unfold partialWindow
  split
  · exact .refl d
  split
  · exact keeps_windowClose ..
  · exact keeps_modifyStats ..

theorem keeps_finalChecks (i : Fin 8) (d : Device) : Keeps P d (finalChecks i d) := by
  unfold finalChecks
  split
  · exact .refl d
  dsimp only
  split <;> split
  · exact (keeps_holdRequest ..).trans (keeps_holdRequest ..)
  · exact keeps_holdRequest ..
  · exact keeps_holdRequest ..
  · exact .refl d

/-! ## Results (R62 to R67, R73) -/

theorem keeps_tpmCount (d : Device) : Keeps P d (tpmCount d) := by
  unfold tpmCount
  split
  · exact keeps_setTpm ..
  · exact .refl d

theorem keeps_overcountCheck (i : Fin 8) (d : Device) : Keeps P d (overcountCheck i d) := by
  unfold overcountCheck
  split
  · exact .refl d
  split
  · refine Keeps.trans (Keeps.trans ?_ (keeps_raise ..)) (keeps_holdRequest ..)
    exact keeps_modifyLot _ _ _ fun _ _ => lotStep_acc id rfl rfl rfl rfl rfl rfl
  · exact .refl d

theorem keeps_sticky (i : Fin 8) (f : Lot → Lot) (d : Device)
    (h : ∀ l, ∃ s, f l = { l with sticky := s }) : Keeps P d (modifyLot i f d) :=
  keeps_modifyLot i f d fun l _ => by
    obtain ⟨s, hs⟩ := h l
    rw [hs]
    exact lotStep_of_eq rfl rfl rfl rfl rfl rfl rfl

/-- A counted result: the accumulator set of the lot changes, its balance kept. -/
theorem keeps_counted (i : Fin 8) (f : Lot → Accum) (d : Device)
    (h : ∀ l, lotAt d i = some l → Balanced l.acc → Balanced (f l)) :
    Keeps P d (modifyLot i (fun l => { l with acc := f l }) d) :=
  keeps_modifyLot i _ d fun l hl => lotStep_acc (h l hl) rfl rfl rfl rfl rfl rfl

theorem keeps_rauResult (i s : Fin 8) (b : Fin 16) (d : Device) : Keeps P d (rauResult i s b d) := by
  unfold rauResult
  split
  · exact .refl d
  rename_i l hl
  have here : ∀ {x}, lotAt d i = some x → x = l := fun hx => Option.some.inj (hx.symm.trans hl)
  dsimp only
  split
  · split
    · refine Keeps.trans ?_ (keeps_raise ..)
      exact keeps_sticky i setSaturated d fun _ => ⟨_, rfl⟩
    · rename_i below
      refine Keeps.trans ?_ (keeps_tpmCount _)
      refine Keeps.trans ?_ (keeps_stuResult ..)
      refine Keeps.trans ?_ (keeps_overcountCheck ..)
      exact keeps_counted i _ d fun x hx h => balanced_firstPassAcc _ _ _ h (by rw [here hx]; omega)
  split
  · refine Keeps.trans ?_ (keeps_raise ..)
    exact keeps_sticky i setStray d fun _ => ⟨_, rfl⟩
  · rename_i owed
    refine Keeps.trans ?_ (keeps_tpmCount _)
    refine Keeps.trans ?_ (keeps_stuResult ..)
    exact keeps_counted i _ d fun x hx h => balanced_retestAcc _ _ _ h (by rw [here hx]; omega)

theorem keeps_openResult (i s : Fin 8) (b : Fin 16) (d : Device) : Keeps P d (openResult i s b d) :=
  (keeps_setHpt' _ d rfl).trans (keeps_rauResult ..)

theorem keeps_lateResult (i : Fin 8) (d : Device) : Keeps P d (lateResult i d) := by
  refine Keeps.trans ?_ (keeps_raise ..)
  exact keeps_modifyLot i setLate d fun _ _ => lotStep_of_eq rfl rfl rfl rfl rfl rfl rfl

theorem keeps_touchResult (i s : Fin 8) (b : Fin 16) (d : Device) : Keeps P d (touchResult i s b d) := by
  unfold touchResult
  split
  · exact keeps_sticky i setMaskDrop d fun _ => ⟨_, rfl⟩
  · exact keeps_openResult ..
  · exact keeps_openResult ..

end Sys2Proof.Machine
end

section
/-! `Keeps` for the release queue and the life of a lot (chapters 1 and 10), for O53 to O60: the close, the drain,
re-staging and how a HELD lot continues. -/

namespace Sys2Proof.Machine

variable {P : Prop}

/-! ## Release records (R181 to R190) -/

theorem balances_startDelay (c : ConfigBlock) {r : Release} (h : RecordBalances r) :
    RecordBalances (startDelay c r) := by
  unfold startDelay
  split <;> exact h

theorem balances_placeRecord (c : ConfigBlock) (cover : Option FloorHold) {r : Release} (h : RecordBalances r) :
    RecordBalances (placeRecord c cover r) := by
  unfold placeRecord
  split
  · exact balances_startDelay c h
  · exact h

theorem balances_returnRecord (d : Device) (o t : Nat) {r : Release} (h : RecordBalances r) :
    RecordBalances (returnRecord d o t r) := by
  unfold returnRecord
  split
  · exact balances_placeRecord _ _ h
  · exact h

theorem closeBalances_lastClose {l : Lot} (h : LotBalances l) : CloseBalances (lastClose l) := by
  unfold lastClose
  cases hs : l.summary with
  | none => exact Nat.zero_add _
  | some m => exact h.2 m hs

theorem balances_recordOf (n : Nat) {l : Lot} (h : LotBalances l) : RecordBalances (recordOf n l) :=
  ⟨closeBalances_lastClose h, (add_sub_cancel ((lastClose l).qIn : Int) l.qFirst).symm⟩

theorem keeps_returnRecords (o t : Nat) (d : Device) : Keeps P d (returnRecords o t d) :=
  keeps_setRecords _ d fun _ => balances_returnRecord d o t

theorem keeps_modifyRecord (n : Nat) (f : Release → Release) (d : Device)
    (h : ∀ r, RecordBalances r → RecordBalances (f r)) : Keeps P d (modifyRecord n f d) :=
  keeps_setRecords _ d fun r hr => by
    split
    · exact h r hr
    · exact hr

/-- The release queue changed to records that balance where the accounts do. -/
theorem keeps_rlu (rlu : Rlu) (d : Device) (h : AccountsBalance d → ∀ r ∈ rlu.records, RecordBalances r) :
    Keeps P d { d with rlu } :=
  ⟨⟨keepsCtp_of_eq rfl rfl, ⟨fun a => ⟨a.1, h a⟩, id, fun _ => id⟩, keepsFli_of_eq rfl rfl, park_same rfl rfl rfl⟩, id⟩

theorem keeps_createRelease (i : Fin 8) (l : Lot) (d : Device) (hl : lotAt d i = some l) :
    Keeps P d (createRelease i l d) := by
  refine Keeps.trans (keeps_rlu _ d fun accounts r hr => ?_) (keeps_empty i _)
  rcases List.mem_append.1 hr with old | new
  · exact accounts.2 r old
  · rw [List.mem_singleton.1 new]
    exact balances_placeRecord _ _ (balances_recordOf _ (accounts.1 i l hl))

theorem keeps_noteQueueFull (i : Fin 8) (l : Lot) (d : Device) (hl : lotAt d i = some l) :
    Keeps P d (noteQueueFull i l d) := by
  unfold noteQueueFull
  split
  · exact .refl d
  · refine Keeps.trans ?_ (keeps_raise ..)
    exact keeps_putLot i l _ d hl (lotStep_of_eq rfl rfl rfl rfl rfl rfl rfl)

theorem keeps_offerReview (i : Fin 8) (d : Device) : Keeps P d (offerReview i d) := by
  unfold offerReview
  split
  · exact .refl d
  rename_i l hl
  split
  · exact keeps_createRelease i l d hl
  · exact keeps_noteQueueFull i l d hl

theorem keeps_takeWaiting (d : Device) : Keeps P d (takeWaiting d) := by
  unfold takeWaiting
  split
  · exact .refl d
  rename_i i l first
  split
  · exact keeps_createRelease i l d (firstInQueueOrder_some first).1
  · exact .refl d

theorem keeps_offerAllReview (d : Device) : Keeps P d (offerAllReview d) :=
  keeps_foldl _ (fun d (e : Fin 8 × Lot) => keeps_offerReview e.1 d) _ _

theorem keeps_removeRecord (n : Nat) (d : Device) : Keeps P d (removeRecord n d) :=
  (keeps_rlu _ d fun accounts r hr => accounts.2 r (List.mem_filter.1 hr).1).trans (keeps_takeWaiting _)

/-! ## Entering QUEUED and REVIEW (R8, R17) -/

/-- A lot without an open insertion that goes to a state outside one. -/
theorem lotStepW_outside {l m : Lot} (hb : LotBalances l → LotBalances m) (hh : m.holds = l.holds)
    (closed : m.opened = false) (hs : m.state ≠ .staging) (outside : ¬ MidInsertion m) : LotStepW P l m := by
  refine ⟨hb, ?_, fun _ _ cell => ?_, fun _ _ mid => absurd mid outside⟩
  · unfold HoldSetSound; rw [hh]; exact id
  · rcases cell with opened | staging
    · rw [closed] at opened; cases opened
    · exact absurd staging hs

/-- A lot that goes to a state outside an insertion, its open mark kept. -/
theorem lotStepW_out {l m : Lot} (hb : LotBalances l → LotBalances m) (hh : m.holds = l.holds)
    (same : m.opened = l.opened) (hs : m.state ≠ .staging) (outside : ¬ MidInsertion m) : LotStepW P l m := by
  refine ⟨hb, ?_, fun _ _ cell => ?_, fun _ _ mid => absurd mid outside⟩
  · unfold HoldSetSound; rw [hh]; exact id
  · rcases cell with opened | staging
    · exact .inl (same ▸ opened)
    · exact absurd staging hs

theorem keeps_preempt (d : Device) : Keeps P d (preempt d) := by
  unfold preempt
  split
  · exact .refl d
  rename_i i l staged
  obtain ⟨hl, hst⟩ := stagingLot_some staged
  split
  · rename_i h
    refine keeps_modifyLot i _ d fun x hx => ?_
    obtain rfl := Option.some.inj (hl.symm.trans hx)
    have outside : LotStepW P l { l with state := .queued } :=
      lotStepW_outside id rfl h.2 (by simp) (by simp [MidInsertion])
    exact lotStep_move id rfl rfl (.inl (by simp [hst])) (by simp) outside.cell outside.mid
  · exact .refl d

/-- Once the lot in slot `i` is QUEUED, a class-0 lot preempts and the checks run. -/
theorem keeps_afterQueued (i : Fin 8) (d : Device) :
    Keeps P d (settle (if (lotAt d i).any (fun l => l.cls == 0) then preempt d else d)) := by
  refine Keeps.trans ?_ (keeps_settle _)
  split
  · exact keeps_preempt d
  · exact .refl d

/-! ## The close (R16, R37) -/

theorem putLot_putLot (i : Fin 8) (l m : Option Lot) (d : Device) : putLot i m (putLot i l d) = putLot i m d := by
  simp [putLot, Vector.set_set]

theorem putLot_setTpt (i : Fin 8) (l : Option Lot) (f : Tpt → Tpt) (d : Device) :
    putLot i l (setTpt f d) = setTpt f (putLot i l d) := rfl

theorem keeps_stopSilence (d : Device) : Keeps P d (stopSilence d) := keeps_setTpt ..

/-- The close completion leaves the accounts and the hold set of the lot. -/
theorem completeLot_frame (l : Lot) : (completeLot l).acc = l.acc ∧ (completeLot l).summary = l.summary ∧
    (completeLot l).holds = l.holds ∧ (completeLot l).overflow = l.overflow ∧ (completeLot l).opened = false := by
  unfold completeLot
  dsimp only
  split <;> exact ⟨rfl, rfl, rfl, rfl, rfl⟩

theorem successor_outside (l : Lot) : successor l = .queued ∨ successor l = .review := by
  unfold successor
  split
  · exact .inl rfl
  · exact .inr rfl

theorem lotStepW_completed (l m : Lot) (acc : m.acc = (completeLot l).acc) (summary : m.summary = (completeLot l).summary)
    (holds : m.holds = (completeLot l).holds) (opened : m.opened = (completeLot l).opened) (hs : m.state ≠ .staging)
    (outside : ¬ MidInsertion m) : LotStepW P l m := by
  obtain ⟨acc', summary', holds', -, closed⟩ := completeLot_frame l
  exact lotStepW_outside (balances_of_eq (acc.trans acc') (summary.trans summary')) (holds.trans holds')
    (opened.trans closed) hs outside

/-- R16: a completed lot goes to HELD where something holds it, or to the successor. -/
theorem keeps_closeComplete (i : Fin 8) (d : Device) : Keeps P d (closeComplete i d) := by
  unfold closeComplete
  split
  · exact .refl d
  rename_i l hl
  refine Keeps.trans ?_ (keeps_settle _)
  obtain ⟨-, -, holds, overflow, -⟩ := completeLot_frame l
  have sameHold : holdsLot (completeLot l) = holdsLot l := by rw [holdsLot, holdsLot, holds, overflow]
  have put : ∀ m, LotStep P l m → Keeps P d (stopSilence (putLot i (some m) d)) := fun m h =>
    (keeps_putLot i l m d hl h).trans (keeps_stopSilence _)
  have complete : lotAt (stopSilence (putLot i (some (completeLot l)) d)) i = some (completeLot l) :=
    (lotAt_of_lmg (setTpt_lmg ..) i).trans (lotAt_putLot_same ..)
  have replaced : ∀ m, putLot i (some m) (stopSilence (putLot i (some (completeLot l)) d)) =
      stopSilence (putLot i (some m) d) := fun m => by
    rw [stopSilence, putLot_setTpt, putLot_putLot]; rfl
  unfold enterSuccessor
  rw [complete]
  dsimp only
  rw [sameHold]
  split
  · rename_i held
    rw [replaced]
    refine put _ ⟨lotStepW_completed _ _ rfl rfl rfl rfl (by simp) ?_, fun _ => ?_⟩
    · rcases successor_outside l with h | h <;> simp [MidInsertion, h]
    · exact ⟨fun _ => by rw [← sameHold] at held; exact held, fun _ => rfl⟩
  rename_i clear
  have move : ∀ m, m.acc = (completeLot l).acc → m.summary = (completeLot l).summary →
      m.holds = (completeLot l).holds → m.overflow = (completeLot l).overflow → m.opened = (completeLot l).opened →
      m.state = .queued ∨ m.state = .review → LotStep P l m := by
    intro m hacc hsum hholds hover hopened hstate
    have step : LotStepW P l m := lotStepW_completed l m hacc hsum hholds hopened
      (by rcases hstate with h | h <;> simp [h]) (by rcases hstate with h | h <;> simp [MidInsertion, h])
    refine lotStep_move step.balance (hholds.trans holds) (hover.trans overflow) (.inr (by simpa using clear)) ?_
      step.cell step.mid
    rcases hstate with h | h <;> simp [h]
  split
  · rw [enterQueued, modifyLot_some _ complete, replaced]
    refine Keeps.trans ?_ (keeps_afterQueued i _)
    exact put _ (move _ rfl rfl rfl rfl rfl (.inl rfl))
  · rw [enterReview, modifyLot_some _ complete, replaced]
    refine Keeps.trans ?_ (keeps_offerReview i _)
    exact put _ (move _ rfl rfl rfl rfl rfl (.inr rfl))

theorem keeps_closeInsertion (i : Fin 8) (d : Device) : Keeps P d (closeInsertion i d) := by
  unfold closeInsertion
  split
  · exact .refl d
  · refine Keeps.trans ?_ (keeps_closeComplete ..)
    refine Keeps.trans ?_ (keeps_setTpt ..)
    refine Keeps.trans ?_ (keeps_finalChecks ..)
    refine Keeps.trans ?_ (keeps_partialWindow ..)
    exact keeps_modifyLot i _ d fun x _ => lotStep_closeLot _ _ x

theorem keeps_endDrain (d : Device) : Keeps P d (endDrain d) := by
  have stopped : Keeps P d (setTpt (fun t => { t with drain := none }) (clearArm d)) :=
    (keeps_clearArm d).trans (keeps_setTpt ..)
  unfold endDrain
  dsimp only
  split
  · exact stopped
  · exact stopped.trans (keeps_closeInsertion ..)

theorem keeps_startDrain (l : Lot) (d : Device) : Keeps P d (startDrain l d) := by
  unfold startDrain
  split
  · exact (keeps_sendTester ..).trans (keeps_setTpt ..)
  · exact keeps_endDrain d

/-! ## A lot that leaves its state (R11, R14) -/

/-- From `d`, where slot `i` holds `l`, an operation that first moves the lot to a state outside HELD and then keeps
every invariant: what R11 says of a lot that continues, whether or not its record says HELD rightly yet. -/
def Moves (P : Prop) (i : Fin 8) (l : Lot) (d e : Device) : Prop :=
  ∃ m, m.state ≠ .held ∧ m.holds = l.holds ∧ m.overflow = l.overflow ∧ LotStepW P l m ∧
    Keeps P (putLot i (some m) d) e

theorem Moves.trans {i : Fin 8} {l : Lot} {d e f : Device} (h : Moves P i l d e) (k : Keeps P e f) :
    Moves P i l d f := by
  obtain ⟨m, hs, hh, ho, step, keeps⟩ := h
  exact ⟨m, hs, hh, ho, step, keeps.trans k⟩

theorem moves_modifyLot {i : Fin 8} {l : Lot} {d : Device} (hl : lotAt d i = some l) (f : Lot → Lot)
    (hs : (f l).state ≠ .held) (hh : (f l).holds = l.holds) (ho : (f l).overflow = l.overflow)
    (step : LotStepW P l (f l)) : Moves P i l d (modifyLot i f d) :=
  ⟨f l, hs, hh, ho, step, by rw [modifyLot_some f hl]; exact .refl _⟩

theorem Moves.weak {i : Fin 8} {l : Lot} {d e : Device} (h : Moves P i l d e) (hl : lotAt d i = some l) :
    Weakly P d e := by
  obtain ⟨m, -, -, -, step, keeps⟩ := h
  exact (weakly_putLot i l m d hl step).trans keeps.weak

/-- The lot need not be HELD as its hold set asks before it moves, if nothing holds it. -/
theorem Moves.held {i : Fin 8} {l : Lot} {d e : Device} (h : Moves P i l d e) (clear : holdsLot l = false)
    (others : HeldBut i d) : HeldIffHolds e := by
  obtain ⟨m, hs, hh, ho, -, keeps⟩ := h
  refine keeps.held fun j x hx => ?_
  rw [lotAt_putLot] at hx
  split at hx
  · obtain rfl := Option.some.inj hx
    have : holdsLot m = holdsLot l := by rw [holdsLot, holdsLot, hh, ho]
    simp [hs, this, clear]
  · exact others j x (Ne.symm ‹_›) hx

theorem Moves.keeps {i : Fin 8} {l : Lot} {d e : Device} (h : Moves P i l d e) (hl : lotAt d i = some l)
    (clear : HeldIffHolds d → holdsLot l = false) : Keeps P d e :=
  ⟨h.weak hl, fun a => h.held (clear a) fun j x _ hx => a j x hx⟩

theorem holdsLot_eq_false_of_state {i : Fin 8} {l : Lot} {d : Device} (hl : lotAt d i = some l) (hs : l.state ≠ .held)
    (a : HeldIffHolds d) : holdsLot l = false := by
  rw [← Bool.not_eq_true]
  exact fun h => hs ((a i l hl).2 h)

/-- The move of an open insertion to a state inside it. -/
theorem lotStepW_inside {l m : Lot} (hb : LotBalances l → LotBalances m) (hh : m.holds = l.holds)
    (same : m.opened = l.opened) (ho : P → (MidInsertion l → l.opened = true) → l.opened = true) : LotStepW P l m := by
  refine ⟨hb, ?_, fun p mid _ => .inl (ho p mid), fun p mid _ => same.trans (ho p mid)⟩
  unfold HoldSetSound; rw [hh]; exact id

/-- R37: the lot as `enterClosing` leaves it. -/
def closingLot (l : Lot) : Lot := { l with state := .closing, resume := none, step := some .drain }

/-- R14: the lot as `restage` leaves it. -/
def restagedLot (l : Lot) : Lot := { l with state := .staging, resume := none, passStarted := false }

section
variable {i : Fin 8} {l : Lot} {d : Device}

theorem enterClosing_eq (hl : lotAt d i = some l) :
    enterClosing i d = startDrain (closingLot l) (putLot i (some (closingLot l)) d) := by
  rw [enterClosing, modifyLot_some _ hl]
  simp only [lotAt_putLot_same, closingLot]

theorem moves_enterClosing (hl : lotAt d i = some l)
    (ho : P → (MidInsertion l → l.opened = true) → l.opened = true) : Moves P i l d (enterClosing i d) :=
  ⟨closingLot l, by simp [closingLot], rfl, rfl, lotStepW_inside id rfl rfl ho, by
    rw [enterClosing_eq hl]
    exact keeps_startDrain ..⟩

/-- A lot re-staged in step DRAIN goes on into CLOSING, any other waits in STAGING. -/
theorem restage_eq (hl : lotAt d i = some l) : restage i d =
    if l.step = some .drain then
      startDrain (closingLot (restagedLot l)) (putLot i (some (closingLot (restagedLot l))) d)
    else settle (putLot i (some (restagedLot l)) d) := by
  rw [restage, modifyLot_some _ hl]
  simp only [lotAt_putLot_same, Option.any_some, beq_iff_eq, enterClosing_eq (lotAt_putLot_same ..), putLot_putLot]
  rfl

theorem moves_restage (hl : lotAt d i = some l)
    (ho : P → (MidInsertion l → l.opened = true) → l.opened = true) : Moves P i l d (restage i d) := by
  rw [restage_eq hl]
  split
  · exact ⟨closingLot (restagedLot l), by simp [closingLot], rfl, rfl, lotStepW_inside id rfl rfl ho,
      keeps_startDrain ..⟩
  · exact ⟨restagedLot l, by simp [restagedLot], rfl, rfl, lotStepW_inside id rfl rfl ho, keeps_settle _⟩

theorem moves_enterQueued (hl : lotAt d i = some l) : Moves P i l d (enterQueued i d) := by
  refine Moves.trans ?_ (keeps_afterQueued i _)
  exact moves_modifyLot hl _ (by simp) rfl rfl (lotStepW_out id rfl rfl (by simp) (by simp [MidInsertion]))

theorem moves_enterReview (hl : lotAt d i = some l) : Moves P i l d (enterReview i d) := by
  refine Moves.trans ?_ (keeps_offerReview i _)
  exact moves_modifyLot hl _ (by simp) rfl rfl (lotStepW_out id rfl rfl (by simp) (by simp [MidInsertion]))

theorem moves_enterPass (hl : lotAt d i = some l) (x : Lot) (k : Nat)
    (ho : P → (MidInsertion l → l.opened = true) → l.opened = true) : Moves P i l d (enterPass i x k d) := by
  have entered : Moves P i l d (modifyLot i (fun l => { l with state := passState k, resume := none }) d) :=
    moves_modifyLot hl _ (passState_ne k).1 rfl rfl (lotStepW_inside id rfl rfl ho)
  unfold enterPass
  dsimp only
  split
  · exact entered
  · exact entered.trans (keeps_startPass ..)

theorem moves_continuePass (hl : lotAt d i = some l) (x : Lot) (k : Nat)
    (ho : P → (MidInsertion l → l.opened = true) → l.opened = true) : Moves P i l d (continuePass i x k d) := by
  unfold continuePass
  split
  · exact (moves_enterPass hl x k ho).trans (keeps_settle _)
  · exact moves_restage hl ho

end

theorem LotStepW.trans {l m n : Lot} (h : LotStepW P l m) (k : LotStepW P m n) : LotStepW P l n :=
  ⟨k.balance ∘ h.balance, k.holdSet ∘ h.holdSet, fun p mid cell => h.cell p mid (k.cell p (h.mid p mid) cell),
    fun p mid => k.mid p (h.mid p mid)⟩

/-- The lot's record may change before it moves. -/
theorem Moves.after {i : Fin 8} {l m : Lot} {d e : Device} (step : LotStepW P l m) (hh : m.holds = l.holds)
    (ho : m.overflow = l.overflow) (h : Moves P i m (putLot i (some m) d) e) : Moves P i l d e := by
  obtain ⟨x, hs, xh, xo, step', keeps⟩ := h
  refine ⟨x, hs, xh.trans hh, xo.trans ho, step.trans step', ?_⟩
  rwa [putLot_putLot] at keeps

/-! ## Continuing from HELD (R11) -/

theorem midInsertion_of_resume {l : Lot} (held : l.state = .held) {r : ResumeStep} (hr : l.resume.getD .queued = r)
    (h : r ≠ .queued ∧ r ≠ .review) : MidInsertion l := by
  refine .inr (.inr (.inr ⟨held, ?_⟩))
  cases hres : l.resume with
  | none => rw [hres] at hr; exact absurd hr.symm h.1
  | some x => rw [hres] at hr; exact ⟨x, rfl, by rw [show x = r from hr]; exact h⟩

/-- R11: a HELD lot that continues moves to a state outside HELD first, whatever its resume step. -/
theorem moves_lotContinues {i : Fin 8} {l : Lot} {d : Device} (hl : lotAt d i = some l) (held : l.state = .held) :
    Moves P i l d (lotContinues i d) := by
  have inside : ∀ {r}, l.resume.getD .queued = r → r ≠ .queued ∧ r ≠ .review →
      P → (MidInsertion l → l.opened = true) → l.opened = true :=
    fun hr h _ mid => mid (midInsertion_of_resume held hr h)
  have unmarked : LotStep P l { l with closeOnContinue := false } := lotStep_of_eq rfl rfl rfl rfl rfl rfl rfl
  unfold lotContinues
  rw [hl]
  dsimp only
  split
  · rename_i h
    obtain ⟨-, -, pass⟩ := h
    refine moves_enterClosing hl (inside rfl ⟨?_, ?_⟩) <;> intro hr <;> simp [hr, resumesPass] at pass
  split
  · rw [clearCloseMark, modifyLot_some _ hl]
    exact (moves_enterQueued (lotAt_putLot_same ..)).after unmarked.weak rfl rfl
  · rw [clearCloseMark, modifyLot_some _ hl]
    exact ((moves_enterReview (lotAt_putLot_same ..)).trans (keeps_settle _)).after unmarked.weak rfl rfl
  · rename_i hr
    refine Moves.trans ?_ (keeps_settle _)
    exact moves_modifyLot hl _ (by simp) rfl rfl (lotStepW_inside id rfl rfl (inside hr (by simp)))
  · rename_i hr; exact moves_restage hl (inside hr (by simp))
  · rename_i hr; exact moves_continuePass hl l 0 (inside hr (by simp))
  · rename_i hr; exact moves_continuePass hl l _ (inside hr (by simp))

/-- A lot whose hold set has lost an entry, or its overflow mark, continues where nothing holds it any more. -/
theorem keeps_continueIfClear_modifyLot (i : Fin 8) (f : Lot → Lot) (d : Device) (step : ∀ l, LotStepW P l (f l))
    (held : ∀ l, (f l).state = l.state) (fewer : ∀ l, holdsLot (f l) = true → holdsLot l = true) :
    Keeps P d (continueIfClear i (modifyLot i f d)) := by
  have weak : Weakly P d (modifyLot i f d) := weakly_modifyLot i f d step
  cases hl : lotAt d i with
  | none =>
    have : continueIfClear i (modifyLot i f d) = putLot i none d := by
      simp [continueIfClear, modifyLot, hl]
    rw [this]
    exact keeps_empty i d
  | some l =>
    have here : lotAt (modifyLot i f d) i = some (f l) := by rw [lotAt_modifyLot_same, hl, Option.map_some]
    have others : HeldIffHolds d → HeldBut i (modifyLot i f d) := fun a j x hj hx => by
      rw [lotAt_modifyLot, if_neg (Ne.symm hj)] at hx
      exact a j x hx
    unfold continueIfClear
    rw [here, Option.any_some]
    split
    · rename_i h
      obtain ⟨hs, hh⟩ : (f l).state = .held ∧ holdsLot (f l) = false := by simpa using h
      have moves : Moves P i (f l) (modifyLot i f d) (lotContinues i (modifyLot i f d)) :=
        moves_lotContinues here hs
      exact ⟨weak.trans (moves.weak here), fun a => moves.held hh (others a)⟩
    · rename_i h
      refine ⟨weak, fun a j x hx => ?_⟩
      rcases eq_or_ne j i with rfl | hj
      · obtain rfl := Option.some.inj (here.symm.trans hx)
        refine ⟨fun hs => by simpa [hs] using h, fun hh => ?_⟩
        rw [held]
        exact (a j l hl).2 (fewer l hh)
      · exact others a j x hj hx

/-! ## Removing floor holds (R174, R177) -/

theorem holdSetSound_filter {l : Lot} (p : HoldEntry → Bool) (h : HoldSetSound l) :
    HoldSetSound { l with holds := l.holds.filter p } :=
  ⟨(List.length_filter_le ..).trans h.1, h.2.sublist ((List.filter_sublist ..).map _)⟩

theorem holdsLot_of_filter {l : Lot} (p : HoldEntry → Bool)
    (h : holdsLot { l with holds := l.holds.filter p } = true) : holdsLot l = true := by
  simp only [holdsLot, Bool.or_eq_true, Bool.not_eq_true', List.isEmpty_eq_false_iff] at h ⊢
  refine h.imp_left fun some none => ?_
  rw [none] at some
  exact some rfl

theorem keeps_loseRemote (o t : Nat) (u : Bool) (i : Fin 8) (d : Device) : Keeps P d (loseRemote o t u i d) := by
  unfold loseRemote
  split
  · exact keeps_continueIfClear_modifyLot i _ d (fun _ => ⟨id, holdSetSound_filter _, fun _ _ => id, fun _ => id⟩)
      (fun _ => rfl) fun _ => holdsLot_of_filter _
  · exact .refl d

theorem keeps_loseRemotes (o t : Nat) (u : Bool) (d : Device) : Keeps P d (loseRemotes o t u d) :=
  keeps_foldl _ (fun d i => keeps_loseRemote o t u i d) _ _

theorem keeps_removeFloorEntry (o t : Nat) (d : Device) : Keeps P d (removeFloorEntry o t d) :=
  ((keeps_setHdu ..).trans (keeps_loseRemotes ..)).trans (keeps_returnRecords ..)

/-! ## Hearing floor holds (R173, R175) -/

theorem keeps_hearNewHold (o p t r : Nat) (d : Device) : Keeps P d (hearNewHold o p t r d) := by
  unfold hearNewHold
  split
  · exact (keeps_addFloorEntry ..).trans (keeps_applyFloorHold ..)
  · refine Keeps.trans (keeps_requestRemotes p o t true d) (Keeps.trans ?_ (keeps_raise ..))
    exact keeps_setRecords _ _ fun r => balances_recallUntracked p r

theorem keeps_hearHold (o p t r : Nat) (d : Device) : Keeps P d (hearHold o p t r d) := by
  unfold hearHold
  split
  · exact keeps_hearNewHold ..
  split
  · exact keeps_setHdu ..
  · exact (keeps_removeFloorEntry ..).trans (keeps_hearNewHold ..)

theorem keeps_hearHoldList (o : Nat) (holds : List HoldField) (d : Device) : Keeps P d (hearHoldList o holds d) :=
  (keeps_foldl _ (fun d (e : FloorHold) => keeps_removeFloorEntry o e.tag d) _ _).trans
    (keeps_foldl _ (fun d (h : HoldField) => keeps_hearHold o h.program h.tag h.reason d) _ _)

/-! ## Scrap (R19) -/

theorem keeps_haltIfArmed (l : Lot) (d : Device) : Keeps P d (haltIfArmed l d) := by
  unfold haltIfArmed
  split
  · exact (keeps_sendTesterIfUp ..).trans (keeps_clearArm _)
  · exact .refl d

theorem keeps_scrapLot (i : Fin 8) (d : Device) : Keeps P d (scrapLot i d) := by
  unfold scrapLot
  split
  · exact .refl d
  rename_i l _
  have stopped : Keeps P d (if l.opened then
      stopSilence (setTpt (fun t => { t with drain := none }) (haltIfArmed l d)) else d) := by
    split
    · exact ((keeps_haltIfArmed ..).trans (keeps_setTpt ..)).trans (keeps_stopSilence _)
    · exact .refl d
  exact (stopped.trans (keeps_empty ..)).trans (keeps_settle _)

/-! ## The pass end (R15) -/

theorem keeps_enterNextPass (i : Fin 8) (k : Nat) (d : Device) : Keeps P d (enterNextPass i k d) := by
  unfold enterNextPass
  split
  · exact .refl d
  rename_i l hl
  split
  · rename_i running
    refine (moves_enterPass hl l (k + 1) fun _ mid => mid ?_).keeps hl (holdsLot_eq_false_of_state hl ?_)
    · exact running.imp_right .inl
    · rcases running with h | h <;> simp [h]
  split
  · rename_i held
    obtain ⟨hs, hr⟩ := held
    refine keeps_putLot i l _ d hl ⟨⟨id, id, fun _ _ => id, fun _ mid _ => mid ?_⟩, id⟩
    refine .inr (.inr (.inr ⟨hs, ?_⟩))
    rcases hr with h | h <;> exact ⟨_, h, by simp⟩
  · exact .refl d

/-- R15: the pass end of the lot with the open insertion leads to the drain. -/
theorem keeps_enterDrain (i : Fin 8) (d : Device) (l : Lot) (hl : lotAt d i = some l) (opened : l.opened = true) :
    Keeps P d (enterDrain i d) := by
  unfold enterDrain
  rw [hl]
  dsimp only
  split
  · refine Keeps.trans ?_ (keeps_startDrain ..)
    exact keeps_putLot i l _ d hl ⟨⟨id, id, fun _ _ => id, fun _ _ _ => opened⟩, id⟩
  · rename_i hs
    exact (moves_enterClosing hl fun _ _ => opened).keeps hl (holdsLot_eq_false_of_state hl hs)

theorem keeps_advancePass (i : Fin 8) (k : Nat) (d : Device) (l : Lot) (hl : lotAt d i = some l)
    (opened : l.opened = true) : Keeps P d (advancePass i k d) := by
  unfold advancePass
  rw [hl]
  dsimp only
  split
  · refine Keeps.trans ?_ (keeps_enterNextPass ..)
    exact keeps_putLot i l _ d hl (lotStep_acc id rfl rfl rfl rfl rfl rfl)
  · exact keeps_enterDrain i d l hl opened

theorem keeps_acceptPassEnd (i : Fin 8) (l : Lot) (k fed : Nat) (d : Device) (hl : lotAt d i = some l)
    (opened : l.opened = true) : Keeps P d (acceptPassEnd i l k fed d) := by
  unfold acceptPassEnd
  dsimp only
  generalize hm : Lot.mk .. = m
  have step : LotStep P l m := hm ▸ lotStep_acc balanced_passBoundary rfl rfl rfl rfl rfl rfl
  have stillOpen : m.opened = true := hm ▸ opened
  refine Keeps.trans ?_ (keeps_settle _)
  split
  · refine ((keeps_putLot i l m d hl step).trans (keeps_raise ..)).trans (keeps_advancePass i k _ m ?_ stillOpen)
    rw [lotAt_of_lmg (raise_lmg ..), lotAt_putLot_same]
  · exact (keeps_putLot i l m d hl step).trans (keeps_advancePass i k _ m (lotAt_putLot_same ..) stillOpen)

end Sys2Proof.Machine
end

section
/-! `Keeps` for what the tester's, handler's and floor line's commands and the timers do (chapters 2, 3, 6 to 8), for
O53 to O60. -/

namespace Sys2Proof.Machine

variable {P : Prop}

/-! ## Intake and timers -/

theorem keeps_onTester {ok : Bool} {act : Device → Device} (h : ∀ d, Keeps P d (act d)) (d : Device) :
    Keeps P d (onTester ok act d) := by
  have heard : Keeps P d (testerHeard d) := keeps_setTpt ..
  unfold onTester
  split
  · refine Keeps.trans ?_ (keeps_settle _)
    split
    · exact heard.trans (h _)
    · exact heard.trans (keeps_raise ..)
  · exact .refl d

theorem keeps_onTimer {running : Bool} {act : Device → Device} {d : Device}
    (h : live d = true → running = true → Keeps P d (act d)) : Keeps P d (onTimer running act d) := by
  unfold onTimer
  split
  · rename_i both
    obtain ⟨alive, runs⟩ := Bool.and_eq_true_iff.1 both
    exact (h alive runs).trans (keeps_settle _)
  · exact .refl d

theorem keeps_handlerHeard (d : Device) : Keeps P d (handlerHeard d) := by
  unfold handlerHeard
  split
  · exact keeps_setHpt' _ d rfl
  · exact .refl d

theorem keeps_onHandler {ok : Bool} {carried : Option Nat} {act : Device → Device}
    (h : ok = true → ∀ d, Keeps P d (act d)) (d : Device) : Keeps P d (onHandler ok carried act d) := by
  unfold onHandler
  split
  · refine Keeps.trans ?_ (keeps_settle _)
    split
    · exact (keeps_handlerHeard d).trans (h ‹_› _)
    · exact (keeps_handlerHeard d).trans (keeps_raise ..)
  · exact .refl d

theorem keeps_handlerNote (c : FaultCode) (d : Device) : Keeps P d (handlerNote c d) := keeps_raise ..

theorem keeps_whenPresent {act : Device → Device} (h : ∀ d, Keeps P d (act d)) (d : Device) :
    Keeps P d (whenPresent act d) := by
  unfold whenPresent
  split
  · exact h d
  · exact keeps_handlerNote ..
  · exact keeps_handlerNote ..
  · exact .refl d

/-! ## The tester (chapter 2) -/

theorem keeps_testerUnexpected (d : Device) : Keeps P d (testerUnexpected d) := keeps_raise ..

theorem keeps_takeLoaded (p : Nat) (d : Device) : Keeps P d (takeLoaded p d) := by
  unfold takeLoaded
  split
  · rename_i ld _
    unfold loadEnds
    dsimp only
    split
    · exact (keeps_setTpt ..).trans (keeps_setTpt ..)
    · refine Keeps.trans ?_ (keeps_raise ..)
      exact (keeps_setTpt ..).trans (keeps_setTpt ..)
  · have taken : Keeps P d (testerUnexpected (setTpt (fun t => { t with loaded := p }) d)) :=
      (keeps_setTpt ..).trans (keeps_testerUnexpected _)
    unfold loadedUnexpected
    dsimp only
    split
    · exact (taken.trans (keeps_raise ..)).trans (keeps_clearArm _)
    · exact taken

theorem keeps_loadFails (c : FaultCode) (ld : Load) (d : Device) : Keeps P d (loadFails c ld d) :=
  Keeps.trans (keeps_setTpt _ d) (keeps_raise ..)

theorem keeps_settleSites (sent : BitVec 8) (d : Device) : Keeps P d (settleSites sent d) :=
  keeps_foldl _ (fun d s => by
    split
    · exact keeps_setSite ..
    · exact .refl d) _ _

theorem keeps_armTaken (d : Device) : Keeps P d (armTaken d) := by
  have taken : Keeps P d (settleSites d.tpt.arm.mask
      (setTpt (fun t => { t with arm := { t.arm with state := .armed } }) d)) :=
    (keeps_setTpt ..).trans (keeps_settleSites ..)
  unfold armTaken
  dsimp only
  split
  · exact taken.trans (keeps_sendMask _)
  · exact taken

theorem keeps_takeArmed (d : Device) : Keeps P d (takeArmed d) := by
  unfold takeArmed
  split
  · split
    · exact keeps_armTaken d
    · exact ((keeps_sendTesterIfUp ..).trans (keeps_clearArm _)).trans (keeps_testerUnexpected _)
  · exact keeps_testerUnexpected d

theorem keeps_takeArmFail (d : Device) : Keeps P d (takeArmFail d) := by
  unfold takeArmFail
  split
  · refine Keeps.trans ?_ (keeps_raise ..)
    exact (keeps_clearArm d).trans (keeps_setTpt ..)
  · exact keeps_testerUnexpected d

theorem keeps_takeMaskOk (d : Device) : Keeps P d (takeMaskOk d) := by
  unfold takeMaskOk
  split
  · exact keeps_testerUnexpected d
  · refine Keeps.trans (keeps_setTpt ..) (keeps_foldl _ (fun d s => ?_) _ _)
    split
    · exact keeps_setSite ..
    · exact .refl d

theorem keeps_touchdown (results : List (Fin 8 × Fin 16)) (d : Device) : Keeps P d (touchdown results d) := by
  unfold touchdown
  split
  · rename_i i _ _
    exact keeps_foldl _ (fun d (r : Fin 8 × Fin 16) => keeps_touchResult i r.1 r.2 d) _ _
  split
  · rename_i i _
    exact keeps_foldl _ (fun d _ => keeps_lateResult i d) _ _
  · exact keeps_raise ..

theorem keeps_raiseTesterDown (d : Device) : Keeps P d (raiseTesterDown d) := by
  unfold raiseTesterDown
  split <;> exact keeps_raise ..

theorem keeps_outOfService (link : LinkState) (d : Device) : Keeps P d (outOfService link d) := by
  have down : Keeps P d (clearArm (setTpt (fun t =>
      { t with link, loaded := 0, load := none, outstanding := [], silence := none }) (raiseTesterDown d))) :=
    ((keeps_raiseTesterDown d).trans (keeps_setTpt ..)).trans (keeps_clearArm _)
  unfold outOfService
  dsimp only
  split
  · exact down.trans (keeps_endDrain _)
  · exact down

theorem keeps_takeDown (d : Device) : Keeps P d (takeDown d) := by
  unfold takeDown
  split
  · exact keeps_raiseTesterDown d
  · exact keeps_outOfService ..

theorem keeps_takeUp (p : Nat) (d : Device) : Keeps P d (takeUp p d) := by
  have contradicted : Keeps P d (raise .tester .corrected .loadMismatch ((openLot d).elim 255 fun e => e.1.val)
      (setTpt (fun t => { t with loaded := p }) d)) := (keeps_setTpt ..).trans (keeps_raise ..)
  unfold takeUp
  split
  · unfold linkComesUp
    exact keeps_setTpt ..
  split
  · exact .refl d
  unfold upContradicts
  dsimp only
  split
  · exact contradicted.trans (keeps_clearArm _)
  · exact contradicted

/-! ## The need at the own dock (R142, R151) -/

theorem keeps_reportGrade (h : Nat) (g : Grade) (d : Device) : Keeps P d (reportGrade h g d) := keeps_setEntry ..

theorem keeps_needAfterDock (d : Device) : Keeps P d (needAfterDock d) := by
  have cleared : Keeps P d (setNeed { d.asu.need with
      state := .seeking, target := none, claimSent := false
      seekTimer := none, windowTimer := none, dockWaitTimer := none } d) := keeps_setNeed _ _ fun _ h => by cases h
  unfold needAfterDock
  dsimp only
  split
  · exact cleared.trans (keeps_toSeeking _)
  · exact cleared.trans (keeps_endNeed _)

theorem keeps_ownDockNeed (h : Nat) (d : Device) : Keeps P d (ownDockNeed h d) := by
  unfold ownDockNeed
  split
  · rename_i t _ target
    refine Keeps.trans ?_ (keeps_needAfterDock _)
    split
    · exact .refl d
    · exact keeps_releaseWon t d fun a => a.2.2.2.2 t target
  · split
    · exact (keeps_removeClaim d).trans (keeps_needAfterDock _)
    · exact .refl d
  · exact .refl d

theorem keeps_reportDock (h k : Nat) (d : Device) : Keeps P d (reportDock h k d) := by
  refine Keeps.trans ?_ (keeps_ownDockNeed h _)
  exact ((keeps_setEntry ..).trans (keeps_offer ..)).trans (keeps_setTpm ..)

theorem keeps_becomePresent (h k : Nat) (d : Device) (hh : isHandler h = true) : Keeps P d (becomePresent h k d) :=
  keeps_setHpt _ _ fun _ same => .inr (Option.some.inj same ▸ hh)

theorem keeps_stopIdle (d : Device) : Keeps P d (stopIdle d) :=
  keeps_of_eq rfl rfl rfl rfl (parked_of_eq rfl rfl rfl (fun _ m => .inl m) fun _ m => .inl m)

theorem keeps_forgetOld (old : Option Nat) (h : Nat) (d : Device) : Keeps P d (forgetOld old h d) := by
  unfold forgetOld
  split
  · split
    · exact .refl d
    · exact (keeps_setEntry ..).trans (keeps_stopIdle _)
  · exact .refl d

theorem keeps_dockChanged (h : Nat) (d : Device) : Keeps P d (dockChanged h d) := by
  unfold dockChanged
  split
  · exact .refl d
  rename_i i l found
  obtain ⟨hl, opened⟩ := openLot_some found
  have here : lotAt (raise .handler .note .dockChanged h d) i = some l := by rw [lotAt_of_lmg (raise_lmg ..), hl]
  dsimp only
  split
  · rename_i running
    refine Keeps.trans (keeps_raise ..) ((moves_restage here fun _ _ => opened).keeps here
      (holdsLot_eq_false_of_state here ?_))
    rcases running with s | s <;> simp [s]
  · exact keeps_raise ..

theorem keeps_dock (h k : Nat) (d : Device) (hh : isHandler h = true) : Keeps P d (dock h k d) :=
  (keeps_becomePresent h k d hh).trans (keeps_reportDock h k _)

theorem keeps_changeDock (h k : Nat) (d : Device) (hh : isHandler h = true) : Keeps P d (changeDock h k d) :=
  (((keeps_becomePresent h k d hh).trans (keeps_forgetOld ..)).trans (keeps_reportDock h k _)).trans
    (keeps_dockChanged h _)

theorem keeps_takeHello (h k : Nat) (d : Device) (hh : isHandler h = true) : Keeps P d (takeHello h k d) := by
  unfold takeHello
  dsimp only
  split
  · exact keeps_dock h k d hh
  · split
    · exact .refl d
    · exact keeps_changeDock h k d hh
  · split
    · exact keeps_becomePresent h k d hh
    · exact keeps_changeDock h k d hh
  · split
    · exact keeps_raise ..
    · exact (keeps_handlerGone d).trans (keeps_dock h k _ hh)

/-! ## Absence and leaving (R43, R44) -/

theorem keeps_becomeAbsent (d : Device) : Keeps P d (becomeAbsent d) := by
  unfold becomeAbsent
  dsimp only
  split
  · exact Keeps.trans (keeps_setHpt' _ d rfl) (keeps_raise ..)
  · exact Keeps.trans (keeps_setHpt' _ d rfl) (keeps_raise ..)

theorem keeps_leavingEnds (d : Device) : Keeps P d (leavingEnds d) := by
  unfold leavingEnds
  dsimp only
  split
  · exact Keeps.trans (keeps_setHpt' _ d rfl) (keeps_handlerGone _)
  · exact keeps_setHpt' _ d rfl

theorem keeps_takeBye (d : Device) : Keeps P d (takeBye d) := by
  unfold takeBye
  split
  · exact keeps_leavingEnds d
  split
  · exact keeps_becomeAbsent d
  · exact keeps_handlerNote ..
  · exact keeps_handlerNote ..
  · exact .refl d

/-! ## Soak, kit change and index records (R46 to R57) -/

theorem keeps_takeSoaked (t : Nat) (d : Device) : Keeps P d (takeSoaked t d) := by
  unfold takeSoaked
  dsimp only
  generalize heard : setHpt _ d = e
  have k : Keeps P d e := heard ▸ keeps_setHpt' _ d rfl
  split
  · exact k.trans (keeps_setHpt' _ _ rfl)
  split
  · exact k.trans (keeps_setHpt' _ _ rfl)
  · exact k.trans (keeps_handlerNote ..)

theorem keeps_soakFails (k : Soak) (d : Device) : Keeps P d (soakFails k d) :=
  Keeps.trans (keeps_setHpt' _ d rfl) (keeps_raise ..)

theorem keeps_reportKit (k : Nat) (d : Device) : Keeps P d (reportKit k d) := by
  unfold reportKit
  split
  · exact .refl d
  · exact (keeps_setEntry ..).trans (keeps_offer ..)

theorem keeps_barKitChange (d : Device) : Keeps P d (barKitChange d) := by
  unfold barKitChange
  split
  · exact keeps_setNeed' _ d rfl
  · exact .refl d

theorem keeps_kitChangeFails (c : FaultCode) (d : Device) : Keeps P d (kitChangeFails c d) :=
  (Keeps.trans (keeps_setHpt' _ d rfl) (keeps_raise ..)).trans (keeps_barKitChange _)

theorem keeps_takeKitDone (k : Nat) (d : Device) : Keeps P d (takeKitDone k d) := by
  unfold takeKitDone
  split
  · unfold kitChangeDone
    dsimp only
    generalize changed : setHpt _ d = e
    have kept : Keeps P d e := changed ▸ keeps_setHpt' _ d rfl
    refine Keeps.trans ?_ (keeps_reportKit ..)
    split
    · exact kept
    · exact (kept.trans (keeps_raise ..)).trans (keeps_barKitChange _)
  · unfold kitDoneUnexpected
    dsimp only
    split
    · exact keeps_handlerNote ..
    · refine Keeps.trans ?_ (keeps_reportKit ..)
      exact (keeps_handlerNote ..).trans (keeps_setHpt' _ _ rfl)

theorem keeps_tpmInterval (n : Nat) (d : Device) : Keeps P d (tpmInterval n d) := by
  unfold tpmInterval
  split
  · exact keeps_setTpm ..
  · exact .refl d

theorem keeps_takeIndex (v : Nat) (c : Bool) (d : Device) : Keeps P d (takeIndex v c d) := by
  unfold takeIndex
  dsimp only
  generalize added : setHpt _ d = e
  have kept : Keeps P d e := added ▸ keeps_setHpt' _ d rfl
  split
  · exact kept
  refine Keeps.trans ?_ (keeps_setHpt' _ _ rfl)
  split
  · exact kept.trans (keeps_tpmInterval ..)
  · exact kept

theorem keeps_takeUnitLost (site : Nat) (d : Device) : Keeps P d (takeUnitLost site d) := by
  unfold takeUnitLost
  split
  · exact keeps_openResult ..
  split
  · exact keeps_lateResult ..
  · exact keeps_handlerNote ..

theorem keeps_takePassEnd (p fed : Nat) (d : Device) : Keeps P d (takePassEnd p fed d) := by
  unfold takePassEnd
  split
  · rename_i i l found
    obtain ⟨hl, opened⟩ := openLot_some found
    split
    · exact keeps_acceptPassEnd i l p fed d hl opened
    · exact keeps_handlerNote ..
  · exact keeps_handlerNote ..

/-! ## Throughput (chapter 6) -/

theorem keeps_reportIfChanged (b : Option Grade) (d : Device) : Keeps P d (reportIfChanged b d) := by
  unfold reportIfChanged
  split
  · split
    · exact .refl d
    · exact keeps_reportGrade ..
  · exact .refl d

theorem keeps_accrue (ms : Nat) (d : Device) : Keeps P d (accrue ms d) := by
  unfold accrue
  dsimp only
  split
  · exact keeps_setTpm ..
  · exact (keeps_setTpm ..).trans (keeps_modifyLot _ _ _ fun _ _ => lotStep_of_eq rfl rfl rfl rfl rfl rfl rfl)

theorem keeps_elapse (ms : Nat) (d : Device) : Keeps P d (elapse ms d) := by
  unfold elapse
  dsimp only
  split
  · exact (keeps_setTpm ..).trans (keeps_accrue ..)
  · exact keeps_setTpm ..

/-! ## Bulletins heard (R122 to R154) -/

/-- A change of FLI outside the queue, the score, the line state, the slot and the station number. -/
theorem keeps_setFli (f : Fli → Fli) (d : Device) (h : ∀ g : Fli, (f g).line = g.line ∧ (f g).score = g.score ∧
    (f g).queue = g.queue ∧ (f g).slot = g.slot ∧ (f g).nextAge = g.nextAge ∧ (f g).station = g.station) :
    Keeps P d (setFli f d) := by
  obtain ⟨line, score, queue, slot, age, station⟩ := h d.fli
  refine keeps_fli rfl rfl rfl rfl rfl station (fun q => ?_) (score_of_eq rfl score line slot.trans)
  simpa only [QueueSound, AgesSound, placesTaken, setFli_same, queue, slot, age] using q

theorem keeps_frameEnds (d : Device) : Keeps P d (frameEnds d) := keeps_setFli _ d fun _ => ⟨rfl, rfl, rfl, rfl, rfl, rfl⟩

theorem keeps_frameDropped (d : Device) : Keeps P d (frameDropped d) :=
  keeps_setFli _ d fun _ => ⟨rfl, rfl, rfl, rfl, rfl, rfl⟩

theorem keeps_setPeer (o : Nat) (p : Peer) (d : Device) : Keeps P d (setPeer o p d) :=
  keeps_setFli _ d fun _ => ⟨rfl, rfl, rfl, rfl, rfl, rfl⟩

theorem keeps_onBulletin {o : Nat} {ok : Bool} {act : Device → Device} (h : ∀ d, Keeps P d (act d)) (d : Device) :
    Keeps P d (onBulletin o ok act d) := by
  unfold onBulletin
  split
  · dsimp only
    split
    · exact (keeps_frameEnds d).trans (keeps_frameDropped _)
    split
    · exact ((keeps_frameEnds d).trans (keeps_duplicateHeard _)).trans (keeps_settle _)
    · exact (((keeps_frameEnds d).trans (keeps_setPeer ..)).trans (h _)).trans (keeps_settle _)
  · exact .refl d

theorem keeps_claimGivenUp (d : Device) : Keeps P d (claimGivenUp d) :=
  (keeps_removeClaim d).trans (keeps_toSeeking _)

theorem keeps_targetLost (h : Nat) (d : Device) : Keeps P d (targetLost h d) := by
  refine Keeps.trans ?_ (keeps_claimGivenUp _)
  split
  · exact keeps_setEntry ..
  · exact .refl d

theorem keeps_needAfterPeerDock (h : Nat) (d : Device) : Keeps P d (needAfterPeerDock h d) := by
  unfold needAfterPeerDock
  split
  · split
    · exact keeps_targetLost h d
    · exact (keeps_raise ..).trans (keeps_toSeeking _)
    · exact .refl d
    · exact .refl d
    · exact .refl d
  · exact .refl d

theorem keeps_needAfterPark (h : Nat) (d : Device) : Keeps P d (needAfterPark h d) := by
  unfold needAfterPark
  dsimp only
  split
  · exact keeps_targetLost h d
  · exact .refl d

theorem keeps_needAfterClaim (o h p : Nat) (d : Device) : Keeps P d (needAfterClaim o h p d) := by
  unfold needAfterClaim
  dsimp only
  split
  · split
    · split
      · exact keeps_claimGivenUp d
      split
      · exact keeps_offerClaim h d
      · exact .refl d
    · split
      · exact keeps_toSeeking d
      · exact keeps_offerClaim h d
    · exact .refl d
    · exact .refl d
    · exact .refl d
  · exact .refl d

theorem keeps_dockConflict (h : Nat) {released : Device → Device} (k : ∀ d, Keeps P d (released d)) (d : Device) :
    Keeps P d (dockConflict h released d) := by
  unfold dockConflict
  split
  · exact ((keeps_undock d).trans (k _)).trans (keeps_raise ..)
  · exact keeps_raise ..

theorem keeps_peerUndocks (o : Nat) (d : Device) : Keeps P d (peerUndocks o d) := keeps_mapEntries ..

theorem keeps_hearDock (o h k : Nat) (g : Option Grade) (d : Device) : Keeps P d (hearDock o h k g d) := by
  refine Keeps.trans ?_ (keeps_needAfterPeerDock h _)
  refine Keeps.trans (keeps_peerUndocks o d) ?_
  split
  · exact keeps_dockConflict h (fun _ => keeps_setEntry ..) _
  · exact keeps_setEntry ..

theorem keeps_hearPark (o h k : Nat) (g : Option Grade) (d : Device) : Keeps P d (hearPark o h k g d) := by
  refine Keeps.trans ?_ (keeps_needAfterPark h _)
  split
  · exact keeps_dockConflict h (fun _ => keeps_setEntry ..) _
  · exact keeps_setEntry ..

theorem keeps_hearParked (o : Nat) (p : HandlerField) (d : Device) : Keeps P d (hearParked o p d) := by
  unfold hearParked
  dsimp only
  split
  · exact keeps_dockConflict _ (fun _ => keeps_setEntry ..) _
  split
  · exact (keeps_setEntry ..).trans (keeps_needAfterPark ..)
  · exact (keeps_setEntry ..).trans (keeps_needAfterPark ..)
  · split
    · exact keeps_setEntry ..
    · exact .refl d
  · exact .refl d

theorem keeps_hearDockedField (o : Nat) (c : StatusField) (d : Device) : Keeps P d (hearDockedField o c d) := by
  unfold hearDockedField
  split
  · exact keeps_peerUndocks o d
  · exact keeps_hearDock ..

theorem keeps_hearStatus (o : Nat) (c : StatusField) (d : Device) : Keeps P d (hearStatus o c d) := by
  refine Keeps.trans (Keeps.trans ?_ (keeps_foldl _ (fun d p => ?_) _ _)) (keeps_hearHoldList ..)
  · exact (keeps_hearDockedField o c d).trans (keeps_needEval _)
  · exact (keeps_hearParked o p d).trans (keeps_needEval _)

theorem keeps_hearClaim (o h p : Nat) (d : Device) : Keeps P d (hearClaim o h p d) :=
  (keeps_setEntry ..).trans (keeps_needAfterClaim ..)

theorem keeps_hearSeek (k : Nat) (d : Device) : Keeps P d (hearSeek k d) := by
  unfold hearSeek
  split
  · exact keeps_parkDocked d
  · exact .refl d

theorem keeps_hearLift (o t : Nat) (d : Device) : Keeps P d (hearLift o t d) := by
  unfold hearLift
  split
  · exact keeps_removeFloorEntry ..
  · exact .refl d

/-! ## The own attempts (R117 to R127) -/

theorem floorLive_live {d : Device} (h : floorLive d = true) : live d = true := (Bool.and_eq_true_iff.1 h).1

/-- R118: the score of a line on which an attempt runs, or may begin, is below 64. -/
theorem score_lt_of_attempt {d : Device} (h : ScoreSound d) (k : d.fli.slot ≠ none ∨ d.fli.line = .active) :
    d.fli.score < 64 := by
  by_contra high
  obtain ⟨noSlot, line, -⟩ := h.2.1 (by omega)
  rcases k with slot | active
  · exact slot noSlot
  · rcases line with l | l <;> rw [active] at l <;> cases l

theorem queueSound_beginAttempt {f : Fli} {e : QEntry} {rest : List QEntry} {c : Option StatusField}
    (head : f.queue = e :: rest) (free : f.slot = none) (h : QueueSound f) :
    QueueSound { f with queue := rest, slot := some ⟨e.bulletin, e.age, c, false⟩, busy := true } := by
  obtain ⟨order, ⟨given, nodup, -⟩, places⟩ := h
  rw [head] at order given nodup
  obtain ⟨headNew, restNodup⟩ := List.nodup_cons.1 nodup
  refine ⟨(List.pairwise_cons.1 order).2, ⟨fun x hx => given x (.tail _ hx), restNodup, fun sl hs => ?_⟩, ?_⟩
  · obtain rfl := Option.some.inj hs
    exact ⟨given e (.head _), fun x hx same => headNew (List.mem_map.2 ⟨x, hx, same⟩)⟩
  · simpa [placesTaken, head, free] using places

theorem keeps_beginAttempt (e : QEntry) (rest : List QEntry) (d : Device) (head : d.fli.queue = e :: rest)
    (opened : attemptOpen d = true) : Keeps P d (beginAttempt e rest d) := by
  simp only [attemptOpen, Bool.and_eq_true, beq_iff_eq, Option.isNone_iff_eq_none] at opened
  obtain ⟨⟨⟨alive, active⟩, free⟩, -⟩ := opened
  refine keeps_fli rfl rfl rfl rfl rfl rfl (queueSound_beginAttempt head free) fun h => ?_
  have low := score_lt_of_attempt h (.inr active)
  exact ⟨by show d.fli.score ≤ 71; omega, fun high => absurd (show 64 ≤ d.fli.score from high) (by omega),
    fun _ => ⟨floorLive_live alive, by simp [beginAttempt, active], by simp [beginAttempt, active]⟩⟩

/-- What an event of the own attempt needs: the attempt runs on a live line. -/
theorem keeps_onAttempt {act : TxSlot → Device → Device}
    (h : ∀ sl d, d.fli.slot = some sl → live d = true → Keeps P d (act sl d)) (d : Device) :
    Keeps P d (onAttempt act d) := by
  unfold onAttempt
  split
  · exact .refl d
  · rename_i sl slot
    split
    · rename_i alive
      exact (h sl d slot (floorLive_live alive)).trans (keeps_settle _)
    · exact .refl d

theorem keeps_claimSent (h p : Nat) (d : Device) : Keeps P d (claimSent h p d) := by
  unfold claimSent
  dsimp only
  split
  · split
    · exact (keeps_setEntry ..).trans (keeps_setNeed _ _ fun _ m => .inl m)
    · exact keeps_setEntry ..
  · exact .refl d

theorem keeps_reportSent (b : Bulletin) (d : Device) : Keeps P d (reportSent b d) := by
  cases b with
  | hold p t r => exact keeps_clearInPlay (.hold p t r) d
  | lift p t => exact keeps_clearInPlay (.lift p t) d
  | claim => exact keeps_claimSent ..
  | dock | park | seek | status => exact .refl d

theorem keeps_bulletinSent (sl : TxSlot) (d : Device) (slot : d.fli.slot = some sl) : Keeps P d (bulletinSent sl d) := by
  refine Keeps.trans ?_ (keeps_reportSent ..)
  refine Keeps.trans ?_ (keeps_sendFloor ..)
  refine keeps_fli rfl rfl rfl rfl rfl rfl (fun q => queueSound_dropSlot d.fli q) fun h => ?_
  have low := score_lt_of_attempt h (.inl (by simp [slot]))
  exact ⟨by show d.fli.score - 1 ≤ 71; omega, fun high => absurd (show 64 ≤ d.fli.score - 1 from high) (by omega),
    fun running => absurd rfl running⟩

/-- A change of the score and the line state after what keeps every invariant. -/
theorem Keeps.then_setFli {d u : Device} (k : Keeps P d u) (f : Fli → Fli)
    (same : (f u.fli).station = u.fli.station ∧ (f u.fli).queue = u.fli.queue ∧ (f u.fli).slot = u.fli.slot ∧
      (f u.fli).nextAge = u.fli.nextAge)
    (score : ScoreSound d → ScoreSound (setFli f u)) : Keeps P d (setFli f u) := by
  obtain ⟨station, queue, slot, age⟩ := same
  refine ⟨⟨k.weak.ctp.trans (keepsCtp_of_eq rfl station), k.weak.lots.trans (keepsLots_of_eq rfl rfl),
    ⟨fun q => ?_, score⟩, fun a => park_same (d := u) rfl rfl station (k.weak.park a)⟩, fun a => held_of_eq rfl (k.held a)⟩
  have := k.weak.fli.queue q
  simpa only [QueueSound, AgesSound, placesTaken, setFli_same, queue, slot, age] using this

theorem reportGone_setFli (b : Bulletin) (f : Fli → Fli) (d : Device) :
    reportGone b (setFli f d) = setFli f (reportGone b d) := by cases b <;> rfl

theorem reportLost_setFli (b : Bulletin) (f : Fli → Fli) (d : Device) :
    reportLost b (setFli f d) = setFli f (reportLost b d) := by
  unfold reportLost
  split
  · unfold claimLost
    split
    · rw [if_pos ‹_›]; rfl
    · rw [if_neg ‹_›]
  · exact reportGone_setFli b f d

/-- R121: what becomes of the bulletin in the slot does not depend on the score. -/
theorem returnSlot_setFli_score (n : Nat) (d : Device) :
    returnSlot (setFli (fun f => { f with score := f.score + n }) d) =
      setFli (fun f => { f with score := f.score + n }) (returnSlot d) := by
  unfold returnSlot
  cases slot : d.fli.slot with
  | none => simp only [setFli_same, slot]
  | some sl =>
    simp only [setFli_same, slot]
    split
    · exact reportGone_setFli sl.bulletin (fun f => { f with score := f.score + n }) { d with fli := { d.fli with slot := none } }
    split
    · exact reportLost_setFli sl.bulletin (fun f => { f with score := f.score + n }) { d with fli := { d.fli with slot := none } }
    · rfl

/-- R126, R127: after a transmit error the score is at most 71, and at 64 or more the line is QUIET or BARRED. -/
theorem keeps_transmitError (d : Device) (attempt : d.fli.slot ≠ none) (alive : live d = true) :
    Keeps P d (transmitError d) := by
  have returned : Keeps P d (returnSlot d) := keeps_returnSlot d
  have alive' : ∀ f u, Keeps P d u → live (setFli f u) = true := fun _ u k =>
    (live_of_ctp k.weak.ctp.device k.weak.ctp.hold).trans alive
  unfold transmitError
  rw [returnSlot_setFli_score]
  unfold quietCheck
  split
  · have noted : Keeps P d (raise .floor .note .lineQuiet
        (ownStation (setFli (fun f => { f with score := f.score + 8 }) (returnSlot d))) (returnSlot d)) :=
      returned.trans (keeps_raise ..)
    refine noted.then_setFli (fun f => { f with score := f.score + 8, line := .quiet, quietTimer := some Config.quietMs })
      ⟨rfl, rfl, rfl, rfl⟩ fun h => ?_
    have low := score_lt_of_attempt h (.inl attempt)
    refine ⟨?_, fun _ => ⟨?_, .inl rfl, alive' _ _ noted⟩, fun slot => absurd ?_ slot⟩
    · simp only [setFli_same, raise_fli, returnSlot_score]; omega
    · simp only [setFli_same, raise_fli, returnSlot_slot]
    · simp only [setFli_same, raise_fli, returnSlot_slot]
  · rename_i notQuiet
    refine returned.then_setFli _ ⟨rfl, rfl, rfl, rfl⟩ fun h => ?_
    have low := score_lt_of_attempt h (.inl attempt)
    obtain ⟨-, notOff, notListen⟩ := h.2.2 attempt
    refine ⟨?_, fun high => ⟨?_, ?_, alive' _ _ returned⟩, fun slot => absurd ?_ slot⟩
    · simp only [setFli_same, returnSlot_score]; omega
    · simp only [setFli_same, returnSlot_slot]
    · have notActive : d.fli.line ≠ .active := fun active =>
        notQuiet ⟨high, by simp only [setFli_same, returnSlot_line, active]⟩
      simp only [setFli_same, returnSlot_line]
      cases line : d.fli.line <;> simp_all
    · simp only [setFli_same, returnSlot_slot]

/-! ## Line timers (R116, R127, R132) -/

theorem refuseOffer_fli (b : Bulletin) (d : Device) : (refuseOffer b d).fli = d.fli := by
  cases b <;> simp only [refuseOffer, clearInPlay_fli, claimLost_fli, raise_fli]

/-- What an offer does to the floor line: the queue and the next age change, nothing else. -/
theorem offer_fli (b : Bulletin) (d : Device) :
    (offer b d).fli = { d.fli with queue := (offer b d).fli.queue, nextAge := (offer b d).fli.nextAge } := by
  have replaced : ∀ p, (enqueue b (removeQueued p d)).fli = { d.fli with
      queue := (enqueue b (removeQueued p d)).fli.queue, nextAge := (enqueue b (removeQueued p d)).fli.nextAge } :=
    fun p => by simp only [enqueue, removeQueued_fli]
  unfold offer
  split
  · rw [reportLost_fli]
  split
  · exact replaced _
  split
  · rfl
  split
  · exact replaced _
  split
  · exact replaced _
  · rw [refuseOffer_fli]

/-- A live line goes to ACTIVE, from LISTEN or with a score below 64. -/
theorem scoreSound_active {d u : Device} (h : ScoreSound u) (listen : u.fli.line = .listen)
    (hd : d.fli.score = u.fli.score) (slot : d.fli.slot = u.fli.slot) : ScoreSound d := by
  have noSlot : u.fli.slot = none := by
    by_contra running
    exact (h.2.2 running).2.2 listen
  have low : u.fli.score < 64 := by
    by_contra high
    rcases (h.2.1 (by omega)).2.1 with l | l <;> rw [listen] at l <;> cases l
  exact ⟨by omega, fun high => by omega, fun running => absurd (slot.trans noSlot) running⟩

theorem keeps_statusPeriod (d : Device) : Keeps P d (statusPeriod d) := by
  unfold statusPeriod
  dsimp only
  generalize restarted : setFli _ d = e
  have kept : Keeps P d e := restarted ▸ keeps_setFli _ d fun _ => ⟨rfl, rfl, rfl, rfl, rfl, rfl⟩
  have offered : Keeps P d (offer .status e) := kept.trans (keeps_offer ..)
  split
  · rename_i listen
    refine offered.then_setFli _ ⟨rfl, rfl, rfl, rfl⟩ fun h => ?_
    exact scoreSound_active (offered.weak.fli.score h) (by rw [offer_fli]; exact listen) rfl rfl
  · exact offered
  · exact offered
  · exact kept.trans (keeps_setFli _ _ fun _ => ⟨rfl, rfl, rfl, rfl, rfl, rfl⟩)
  · exact kept

/-- R127: at the quiet timer's expiry the score is 32 and the line ACTIVE. -/
theorem keeps_quietOver (d : Device) :
    Keeps P d (setFli (fun f => { f with quietTimer := none, score := 32, line := .active }) d) :=
  (Keeps.refl d).then_setFli _ ⟨rfl, rfl, rfl, rfl⟩ fun h =>
    ⟨by simp, fun high => absurd high (by simp), fun slot => ⟨(h.2.2 slot).1, by simp, by simp⟩⟩

theorem keeps_peerSilent (o : Nat) (d : Device) : Keeps P d (peerSilent o d) := by
  unfold peerSilent
  dsimp only
  refine Keeps.trans ?_ (keeps_setHdu ..)
  exact ((keeps_setPeer ..).trans (keeps_raise ..)).trans (keeps_peerUndocks o _)

/-! ## The timers of the assignment unit and of the releases (R139, R147 to R153, R185) -/

theorem keeps_seekRepeat (d : Device) : Keeps P d (seekRepeat d) := by
  have stopped : Keeps P d (setNeed { d.asu.need with seekTimer := none } d) := keeps_setNeed' _ d rfl
  unfold seekRepeat
  dsimp only
  split
  · exact stopped.trans (keeps_offerSeek _)
  · split
    · exact stopped
    · exact stopped.trans (keeps_offerClaim ..)
  · exact stopped

theorem keeps_claimWon (d : Device) : Keeps P d (claimWon d) := keeps_setNeed' _ d rfl

theorem keeps_dockWaitOver (h : Nat) (d : Device) (target : d.asu.need.target = some h) :
    Keeps P d (dockWaitOver h d) := by
  refine Keeps.trans ?_ (keeps_toSeeking _)
  refine Keeps.trans ?_ (keeps_setNeed' _ _ rfl)
  exact (keeps_releaseWon h d fun a => a.2.2.2.2 h target).trans (keeps_raise ..)

theorem balances_delayOver {r : Release} (h : RecordBalances r) : RecordBalances (delayOver r) := h

end Sys2Proof.Machine
end

section
/-! `Keeps` for the requests of the cell terminal that neither configure, join nor clear a bank, and for a
millisecond of the timers (chapters 1, 9 to 11; log 2), for O53 to O60. -/

namespace Sys2Proof.Machine

variable {P : Prop}

/-! ## Lots and the terminal block changed -/

/-- Every lot of `e` is a step of the lot of `d` in its slot. -/
theorem keeps_of_lotSteps {d e : Device} (ctp : e.ctp = d.ctp) (fli : e.fli = d.fli) (asu : e.asu = d.asu)
    (hpt : e.hpt = d.hpt) (rlu : e.rlu = d.rlu)
    (h : ∀ i m, lotAt e i = some m → ∃ l, lotAt d i = some l ∧ LotStep P l m) : Keeps P d e := by
  refine ⟨weakly_lots ctp fli asu (by rw [hpt]) ⟨fun a => ⟨fun i m hm => ?_, by rw [rlu]; exact a.2⟩,
    fun a i m hm => ?_, fun p a => ⟨fun i j x y hx hy cx cy => ?_, fun i m hm mid => ?_⟩⟩, fun a i m hm => ?_⟩
  · obtain ⟨l, hl, step⟩ := h i m hm
    exact step.weak.balance (a.1 i l hl)
  · obtain ⟨l, hl, step⟩ := h i m hm
    exact step.weak.holdSet (a i l hl)
  · obtain ⟨l, hl, step⟩ := h i x hx
    obtain ⟨l', hl', step'⟩ := h j y hy
    exact a.1 i j l l' hl hl' (step.weak.cell p (a.2 i l hl) cx) (step'.weak.cell p (a.2 j l' hl') cy)
  · obtain ⟨l, hl, step⟩ := h i m hm
    exact step.weak.mid p (a.2 i l hl) mid
  · obtain ⟨l, hl, step⟩ := h i m hm
    exact step.held (a i l hl)

/-- A change of CTP outside the device state, the configuration, the reset hold and the banks. -/
theorem keeps_setCtp (f : Ctp → Ctp) (d : Device) (h : ∀ c : Ctp, (f c).device = c.device ∧ (f c).config = c.config ∧
    (f c).hold = c.hold ∧ (f c).floorBank = c.floorBank ∧ (f c).handlerBank = c.handlerBank ∧
    (f c).testerBank = c.testerBank ∧ (f c).accountingBank = c.accountingBank) : Keeps P d (setCtp f d) := by
  obtain ⟨device, config, hold, floor, handler, tester, accounting⟩ := h d.ctp
  have banks : ∀ n, bank (setCtp f d) n = bank d n := fun n => by cases n <;> assumption
  exact ⟨⟨⟨device, config, hold, rfl, fun n => by rw [uncorrectedIn, uncorrectedIn, banks]; exact id⟩,
    keepsLots_of_eq rfl rfl, keepsFli_of_eq rfl (live_of_ctp device hold), park_same rfl rfl rfl⟩, held_of_eq rfl⟩

theorem keeps_countFrameError (d : Device) : Keeps P d (countFrameError d) :=
  keeps_setCtp _ d fun _ => ⟨rfl, rfl, rfl, rfl, rfl, rfl, rfl⟩

theorem keeps_waitRequest (c : Instr) (d : Device) : Keeps P d (waitRequest c d) := by
  unfold waitRequest
  split
  · exact keeps_setCtp _ d fun _ => ⟨rfl, rfl, rfl, rfl, rfl, rfl, rfl⟩
  · exact keeps_countFrameError d

/-! ## Answers and checks (R196, R197) -/

theorem keeps_reply (n : Nat) (c : ResponseCode) (p : List Byte) (d : Device) : Keeps P d (reply n c p d) :=
  keeps_respond ..

theorem keeps_joinedOnly {n : Nat} {act : Device → Device} (h : ∀ d, Keeps P d (act d)) (d : Device) :
    Keeps P d (joinedOnly n act d) := by
  unfold joinedOnly
  split
  · exact keeps_reply ..
  · exact h d

theorem keeps_checkFields {n : Nat} {checks : List (Nat × Bool)} {act : Device → Device}
    (h : ∀ d, Keeps P d (act d)) (d : Device) : Keeps P d (checkFields n checks act d) := by
  unfold checkFields
  split
  · exact keeps_reply ..
  · exact h d

/-- An owner's act, the checks after it, and the answer. -/
theorem Keeps.answered {d e : Device} (h : Keeps P d e) (n : Nat) (c : ResponseCode) (p : List Byte) :
    Keeps P d (reply n c p (settle e)) := (h.trans (keeps_settle e)).trans (keeps_reply ..)

/-! ## READ, RETRY (R203 to R205) -/

theorem keeps_clearUnseen (first count : Nat) (d : Device) : Keeps P d (clearUnseen first count d) :=
  keeps_foldl _ (fun d i => by
    split
    · exact keeps_modifyLot _ _ _ fun _ _ => lotStep_of_eq rfl rfl rfl rfl rfl rfl rfl
    · exact .refl d) _ _

theorem keeps_readRequest (table slot first count : Nat) (d : Device) :
    Keeps P d (readRequest table slot first count d) := by
  refine keeps_joinedOnly (fun d => ?_) d
  split
  · exact keeps_reply ..
  split
  · exact keeps_reply ..
  split
  · exact keeps_reply ..
  split
  · exact keeps_reply ..
  refine Keeps.trans ?_ (keeps_reply ..)
  split
  · exact keeps_clearUnseen ..
  · exact .refl d

theorem keeps_retryRequest (d : Device) : Keeps P d (retryRequest d) :=
  keeps_joinedOnly (fun d => Keeps.answered (Keeps.trans (keeps_setTpt _ d) (keeps_setHpt' _ _ rfl)) ..) d

/-! ## ADMIT and WITHDRAW (R4, R5, R18) -/

theorem lotAt_renumber (d : Device) (i : Fin 8) : lotAt (renumber d) i =
    (lotAt d i).map fun l => { l with seq := (lotList d).countP fun e => e.2.seq ≤ l.seq } := by
  simp [lotAt, renumber, vmap]

theorem keeps_renumber (d : Device) : Keeps P d (renumber d) :=
  keeps_of_lotSteps rfl rfl rfl rfl rfl fun i m hm => by
    rw [lotAt_renumber] at hm
    obtain ⟨l, hl, rfl⟩ := Option.map_eq_some_iff.1 hm
    exact ⟨l, hl, lotStep_of_eq rfl rfl rfl rfl rfl rfl rfl⟩

theorem keeps_readySequence (d : Device) : Keeps P d (readySequence d) := by
  unfold readySequence
  split
  · exact keeps_renumber d
  · exact .refl d

/-- A record as ADMIT makes it: nothing counted, nothing holding it, QUEUED and not open. -/
structure FreshLot (l : Lot) : Prop where
  acc : l.acc = .zero
  summary : l.summary = none
  holds : l.holds = []
  overflow : l.overflow = false
  state : l.state = .queued
  opened : l.opened = false

theorem keeps_putFresh {l : Lot} (fresh : FreshLot l) (i : Fin 8) (d : Device) :
    Keeps P d (putLot i (some l) d) := by
  obtain ⟨acc, summary, holds, overflow, state, opened⟩ := fresh
  have noCell : ¬ HasCell l := by simp [HasCell, opened, state]
  have balances : LotBalances l := ⟨acc ▸ balanced_zero, fun m hm => by rw [summary] at hm; cases hm⟩
  refine ⟨weakly_lots rfl rfl rfl rfl ⟨fun a => ⟨fun j x hx => ?_, a.2⟩, fun a j x hx => ?_,
    fun _ a => ⟨fun j k x y hx hy cx cy => ?_, fun j x hx mid => ?_⟩⟩,
    held_putLot i l d fun _ => by simp [state, holdsLot, holds, overflow]⟩
  · rw [lotAt_putLot] at hx; split at hx
    · exact Option.some.inj hx ▸ balances
    · exact a.1 j x hx
  · rw [lotAt_putLot] at hx; split at hx
    · obtain rfl := Option.some.inj hx
      simp [HoldSetSound, holds]
    · exact a j x hx
  · rw [lotAt_putLot] at hx hy
    split at hx
    · exact absurd cx (Option.some.inj hx ▸ noCell)
    split at hy
    · exact absurd cy (Option.some.inj hy ▸ noCell)
    · exact a.1 j k x y hx hy cx cy
  · rw [lotAt_putLot] at hx; split at hx
    · obtain rfl := Option.some.inj hx
      simp [MidInsertion, state] at mid
    · exact a.2 j x hx mid

theorem weakly_foldl {α : Type} (f : Device → α → Device) (h : ∀ d a, Weakly P d (f d a)) (l : List α)
    (d : Device) : Weakly P d (l.foldl f d) := by
  induction l generalizing d with
  | nil => exact .refl d
  | cons a l ih => exact (h d a).trans (ih _)

/-- Requests stored for one lot leave the others, and leave that lot's state. -/
theorem storeHolds_frame {α : Type} (i : Fin 8) (key : α → HoldKey) (es : List α) (d : Device) :
    (HeldBut i d → HeldBut i (es.foldl (fun d e => storeHold i (key e) false d) d)) ∧
    ∀ l, lotAt (es.foldl (fun d e => storeHold i (key e) false d) d) i = some l →
      ∃ m, lotAt d i = some m ∧ l.state = m.state := by
  induction es generalizing d with
  | nil => exact ⟨id, fun l hl => ⟨l, hl, rfl⟩⟩
  | cons e es ih =>
    obtain ⟨others, here⟩ := ih (storeHold i (key e) false d)
    refine ⟨fun a => others fun j l hj hl => ?_, fun l hl => ?_⟩
    · rw [lotAt_storeHold, if_neg hj] at hl
      exact a j l hj hl
    · obtain ⟨m, hm, same⟩ := here l hl
      rw [lotAt_storeHold, if_pos rfl] at hm
      obtain ⟨x, hx, rfl⟩ := Option.map_eq_some_iff.1 hm
      exact ⟨x, hx, same.trans (applyHold_frame ..).1⟩

/-- R4, R169: a fresh lot takes its floor holds and enters HELD. -/
theorem keeps_enterHeld_coverNewLot (i : Fin 8) (l : Lot) (d : Device)
    (free : ∀ m, lotAt d i = some m → m.state ≠ .held) : Keeps P d (enterHeld i (coverNewLot i l d)) := by
  obtain ⟨others, here⟩ := storeHolds_frame i (fun e : FloorHold => .remote e.origin e.tag)
    (d.hdu.table.filter fun e => lotCovered l e.program) d
  refine ⟨(weakly_foldl _ (fun d _ => weakly_storeHold i _ false d) _ d).trans (weakly_enterHeld i _), fun a => ?_⟩
  refine held_enterHeld i _ (others fun j x _ hx => a j x hx) fun x hx held => ?_
  obtain ⟨m, hm, same⟩ := here x hx
  exact absurd (same ▸ held) (free m hm)

theorem keeps_admitLot (i : Fin 8) (l : Lot) (d : Device) (fresh : FreshLot l) : Keeps P d (admitLot i l d) := by
  unfold admitLot
  dsimp only
  generalize hm : Lot.mk .. = m
  have fresh' : FreshLot m := by
    obtain ⟨acc, summary, holds, overflow, state, opened⟩ := fresh
    subst hm
    exact ⟨acc, summary, holds, overflow, state, opened⟩
  have admitted : Keeps P d (putLot i (some m) { readySequence d with
      lmg := { (readySequence d).lmg with sequence := (readySequence d).lmg.sequence + 1 } }) := by
    refine Keeps.trans (keeps_readySequence d) (Keeps.trans ?_ (keeps_putFresh fresh' ..))
    exact keeps_of_lotSteps rfl rfl rfl rfl rfl fun _ x hx => ⟨x, hx, lotStep_of_eq rfl rfl rfl rfl rfl rfl rfl⟩
  refine Keeps.trans ?_ (keeps_reply ..)
  split
  · refine admitted.trans (keeps_enterHeld_coverNewLot i m _ fun x hx => ?_)
    obtain rfl := Option.some.inj ((lotAt_putLot_same ..).symm.trans hx)
    simp [fresh'.state]
  · refine admitted.trans ?_
    have here : lotAt (putLot i (some m) { readySequence d with
      lmg := { (readySequence d).lmg with sequence := (readySequence d).lmg.sequence + 1 } }) i = some m :=
      lotAt_putLot_same ..
    exact (moves_enterQueued here).keeps here (holdsLot_eq_false_of_state here (by simp [fresh'.state]))

theorem keeps_admitRequest (lotId product kit cls qty planCount : Nat) (plan : List PlanField) (d : Device) :
    Keeps P d (admitRequest lotId product kit cls qty planCount plan d) := by
  refine keeps_joinedOnly (keeps_checkFields fun d => ?_) d
  split
  · exact keeps_reply ..
  split
  · exact keeps_reply ..
  · exact keeps_admitLot _ _ d ⟨rfl, rfl, rfl, rfl, rfl, rfl⟩

theorem keeps_withdrawRequest (lotId : Nat) (d : Device) : Keeps P d (withdrawRequest lotId d) := by
  refine keeps_joinedOnly (fun d => ?_) d
  split
  · exact keeps_reply ..
  split
  · exact (keeps_empty _ d).answered ..
  · exact keeps_reply ..

/-! ## Holds and floor holds (R162 to R165, R171, R172, R177) -/

theorem disposeLot_frame (key : Option HoldKey) (close : Bool) (l : Lot) :
    (disposeLot key close l).state = l.state ∧ (disposeLot key close l).resume = l.resume ∧
    (disposeLot key close l).opened = l.opened ∧ (disposeLot key close l).acc = l.acc ∧
    (disposeLot key close l).summary = l.summary := by
  unfold disposeLot
  cases key <;> cases close <;> exact ⟨rfl, rfl, rfl, rfl, rfl⟩

/-- R164: what a disposition leaves of the hold set and the overflow mark. -/
theorem disposeLot_holds (key : Option HoldKey) (close : Bool) (l : Lot) :
    ((disposeLot key close l).holds = l.holds ∧ (disposeLot key close l).overflow = false) ∨
    ∃ k, (disposeLot key close l).holds = (l.holds.filter fun e => e.key != k) ∧
      (disposeLot key close l).overflow = l.overflow := by
  unfold disposeLot
  cases key with
  | none => cases close <;> exact .inl ⟨rfl, rfl⟩
  | some k => cases close <;> exact .inr ⟨k, rfl, rfl⟩

theorem holdSetSound_disposeLot (key : Option HoldKey) (close : Bool) {l : Lot} (h : HoldSetSound l) :
    HoldSetSound (disposeLot key close l) := by
  rcases disposeLot_holds key close l with ⟨holds, -⟩ | ⟨k, holds, -⟩
  · rw [HoldSetSound, holds]; exact h
  · rw [HoldSetSound, holds]; exact holdSetSound_filter (fun e => e.key != k) h

theorem holdsLot_of_disposeLot (key : Option HoldKey) (close : Bool) {l : Lot}
    (h : holdsLot (disposeLot key close l) = true) : holdsLot l = true := by
  rcases disposeLot_holds key close l with ⟨holds, overflow⟩ | ⟨k, holds, overflow⟩
  · rw [holdsLot, holds, overflow, Bool.or_false] at h
    rw [holdsLot, h, Bool.true_or]
  · rw [holdsLot, holds, overflow] at h
    exact holdsLot_of_filter _ h

theorem lotStepW_disposeLot (key : Option HoldKey) (close : Bool) (l : Lot) : LotStepW P l (disposeLot key close l) := by
  obtain ⟨state, resume, opened, acc, summary⟩ := disposeLot_frame key close l
  refine ⟨balances_of_eq acc summary, holdSetSound_disposeLot key close, ?_, ?_⟩
  · unfold HasCell; rw [state, opened]; exact fun _ _ => id
  · unfold MidInsertion; rw [state, opened, resume]; exact fun _ => id

theorem keeps_disposeRequest (lotId reason flags detail tag disposition : Nat) (d : Device) :
    Keeps P d (disposeRequest lotId reason flags detail tag disposition d) := by
  refine keeps_joinedOnly (keeps_checkFields fun d => ?_) d
  dsimp only
  split
  · exact keeps_reply ..
  rename_i i _
  split
  · exact keeps_reply ..
  split
  · exact (keeps_scrapLot i d).trans (keeps_reply ..)
  split
  · exact keeps_reply ..
  · refine Keeps.answered ?_ ..
    exact keeps_continueIfClear_modifyLot i _ d (lotStepW_disposeLot _ _) (fun l => (disposeLot_frame _ _ l).1)
      fun _ => holdsLot_of_disposeLot _ _

theorem keeps_placeHoldRequest (lotId note : Nat) (d : Device) : Keeps P d (placeHoldRequest lotId note d) := by
  refine keeps_joinedOnly (keeps_checkFields fun d => ?_) d
  split
  · exact keeps_reply ..
  split
  · exact keeps_reply ..
  · exact (keeps_holdRequest ..).answered ..

theorem keeps_placeFloorHoldRequest (program reason : Nat) (d : Device) :
    Keeps P d (placeFloorHoldRequest program reason d) := by
  refine keeps_joinedOnly (keeps_checkFields fun d => ?_) d
  split
  · exact keeps_reply ..
  split
  · exact keeps_reply ..
  · exact ((keeps_originate ..).trans (keeps_applyFloorHold ..)).answered ..

theorem keeps_liftFloorRequest (tag : Nat) (d : Device) : Keeps P d (liftFloorRequest tag d) := by
  refine keeps_joinedOnly (keeps_checkFields fun d => ?_) d
  split
  · exact keeps_reply ..
  · exact ((keeps_removeFloorEntry ..).trans (keeps_offerLift ..)).answered ..

theorem keeps_overrideRequest (origin tag : Nat) (d : Device) : Keeps P d (overrideRequest origin tag d) := by
  refine keeps_joinedOnly (keeps_checkFields fun d => ?_) d
  split
  · split
    · exact (keeps_removeFloorEntry ..).answered ..
    · exact keeps_reply ..
  · split
    · exact (keeps_loseRemotes ..).answered ..
    · exact keeps_reply ..

/-! ## CLEAR_STICKY, SET_GRADE, the releases (R75, R109, R189, R190) -/

theorem keeps_clearStickyRequest (lotId : Nat) (d : Device) : Keeps P d (clearStickyRequest lotId d) := by
  refine keeps_joinedOnly (fun d => ?_) d
  split
  · exact keeps_reply ..
  · refine Keeps.trans ?_ (keeps_reply ..)
    exact keeps_modifyLot _ _ _ fun _ _ => lotStep_of_eq rfl rfl rfl rfl rfl rfl rfl

theorem keeps_setGradeRequest (h : Nat) (d : Device) : Keeps P d (setGradeRequest h d) := by
  refine keeps_joinedOnly (keeps_checkFields fun d => ?_) d
  split
  · refine Keeps.answered ?_ ..
    generalize restored : setTpm _ d = e
    have kept : Keeps P d e := restored ▸ keeps_setTpm ..
    split
    · split
      · exact (kept.trans (keeps_reportGrade ..)).trans (keeps_offer ..)
      · exact kept.trans (keeps_reportGrade ..)
    · exact kept
  · exact keeps_reply ..

theorem keeps_collectRequest (n : Nat) (d : Device) : Keeps P d (collectRequest n d) := by
  refine keeps_joinedOnly (keeps_checkFields fun d => ?_) d
  split
  · exact keeps_reply ..
  split
  · exact (keeps_removeRecord n d).answered ..
  · exact keeps_reply ..

theorem keeps_disposeReleaseRequest (n disposition : Nat) (d : Device) :
    Keeps P d (disposeReleaseRequest n disposition d) := by
  refine keeps_joinedOnly (keeps_checkFields fun d => ?_) d
  split
  · exact keeps_reply ..
  split
  · exact keeps_reply ..
  split
  · exact (keeps_removeRecord n d).answered ..
  split
  · exact keeps_reply ..
  · exact (keeps_modifyRecord n _ d fun _ => balances_placeRecord _ _).trans (keeps_reply ..)

/-! ## One millisecond (log 2) -/

theorem entryAt_of_ticked {d e : Device} (ticked : e.asu = tickAsu d.asu) (h : Nat) :
    entryAt e h = { entryAt d h with timer := tickTimer (entryAt d h).timer } := by
  simp only [entryAt, ticked, tickAsu, vmap, Vector.toList, List.getD_eq_getElem?_getD, List.getElem?_map]
  cases d.asu.table.toArray.toList[h - 1]? <;> rfl

theorem keeps_tick (d : Device) : Keeps P d (tick d) := by
  unfold tick
  split
  · refine Keeps.trans ?_ (keeps_elapse 1 _)
    refine ⟨⟨keepsCtp_of_eq rfl rfl, ⟨fun a => ⟨a.1, fun r hr => ?_⟩, id, fun _ => id⟩, ⟨id, id⟩, fun park => ?_⟩, id⟩
    · obtain ⟨x, hx, rfl⟩ := List.mem_map.1 hr
      exact a.2 x hx
    · obtain ⟨few, nodup, free, handlers⟩ := park
      refine ⟨few, nodup, fun h hm => ?_, handlers⟩
      rw [entryAt_of_ticked (d := d) rfl]
      exact free h hm
  · exact .refl d

end Sys2Proof.Machine
end

section
/-! What each command keeps, and from it O51 to O60: the invariants of every step, the locked device state and the
standing of an UNCORRECTED record. -/

namespace Sys2Proof.Machine

/-! ## What a command keeps -/

/-- The invariants of Safety.lean but the pins', each kept on its own. -/
structure KeepsInvariants (d e : Device) : Prop where
  lots : KeepsLots True d e
  fli : KeepsFli d e
  park : ParkedSound d → ParkedSound e
  held : HeldIffHolds d → HeldIffHolds e

/-- What a command keeps that may join the device only where `joins` holds, and may empty only the banks of
`clears`. -/
structure CommandKeeps (joins : Prop) (clears : BankName → Prop) (d e : Device) : Prop where
  invariants : KeepsInvariants d e
  station : e.fli.station = d.fli.station
  joined : d.ctp.device = .joined → e.ctp.device = .joined ∧ e.ctp.config = d.ctp.config
  config : d.ctp.device = .config → ¬ joins → e.ctp.device = .config
  banks : ∀ n, uncorrectedIn d n → ¬ clears n → uncorrectedIn e n

theorem KeepsInvariants.trans {d e f : Device} (h : KeepsInvariants d e) (k : KeepsInvariants e f) :
    KeepsInvariants d f :=
  ⟨h.lots.trans k.lots, h.fli.trans k.fli, k.park ∘ h.park, k.held ∘ h.held⟩

section
variable {joins : Prop} {clears : BankName → Prop} {d e f : Device}

theorem Keeps.invariants (h : Keeps True d e) : KeepsInvariants d e := ⟨h.weak.lots, h.weak.fli, h.weak.park, h.held⟩

theorem Keeps.command (h : Keeps True d e) : CommandKeeps joins clears d e :=
  ⟨h.invariants, h.weak.ctp.station, fun joined => ⟨h.weak.ctp.device.trans joined, h.weak.ctp.config⟩,
    fun config _ => h.weak.ctp.device.trans config, fun n bad _ => h.weak.ctp.banks n bad⟩

theorem CommandKeeps.refl (d : Device) : CommandKeeps joins clears d d := (Keeps.refl d).command

theorem CommandKeeps.trans (h : CommandKeeps joins clears d e) (k : CommandKeeps joins clears e f) :
    CommandKeeps joins clears d f := by
  refine ⟨h.invariants.trans k.invariants, k.station.trans h.station, fun joined => ?_,
    fun config no => k.config (h.config config no) no, fun n bad no => k.banks n (h.banks n bad no) no⟩
  obtain ⟨joined', config⟩ := h.joined joined
  obtain ⟨joined'', config'⟩ := k.joined joined'
  exact ⟨joined'', config'.trans config⟩

theorem CommandKeeps.mono {joins' : Prop} {clears' : BankName → Prop} (h : CommandKeeps joins clears d e)
    (hj : joins → joins') (hc : ∀ n, clears n → clears' n) : CommandKeeps joins' clears' d e :=
  ⟨h.invariants, h.station, h.joined, fun config no => h.config config (no ∘ hj),
    fun n bad no => h.banks n bad (no ∘ hc n)⟩

end

/-! ## The line at rest (R126) -/

/-- No attempt runs and the score is below 64: a line of any state is sound so. -/
def LineAtRest (f : Fli) : Prop := f.slot = none ∧ f.score < 64

theorem scoreSound_of_atRest {d : Device} (h : LineAtRest d.fli) : ScoreSound d := by
  obtain ⟨noSlot, low⟩ := h
  exact ⟨by omega, fun high => by omega, fun slot => absurd noSlot slot⟩

/-- R125: no attempt runs, and no score is high, on a line that is not live. -/
theorem lineAtRest_of_not_live {d : Device} (h : ScoreSound d) (dead : live d = false) : LineAtRest d.fli := by
  constructor
  · by_contra slot
    rw [(h.2.2 slot).1] at dead
    cases dead
  · by_contra high
    rw [(h.2.1 (by omega)).2.2] at dead
    cases dead

theorem live_eq_false_of_config {d : Device} (h : d.ctp.device = .config) : live d = false := by simp [live, h]

theorem live_eq_false_of_hold {d : Device} (h : d.ctp.hold ≠ .running) : live d = false := by simp [live, h]

/-! ## Requests (chapter 11) -/

/-- A change of CTP that keeps the banks, of the line's state and status timer, and of what no invariant reads. -/
theorem commandKeeps_ctp {joins : Prop} {clears : BankName → Prop} {d e : Device} (lmg : e.lmg = d.lmg)
    (rlu : e.rlu = d.rlu) (asu : e.asu = d.asu) (handler : e.hpt.handler = d.hpt.handler)
    (station : e.fli.station = d.fli.station)
    (queue : QueueSound d.fli → QueueSound e.fli) (score : ScoreSound d → ScoreSound e)
    (joined : d.ctp.device = .joined → e.ctp.device = .joined ∧ e.ctp.config = d.ctp.config)
    (config : d.ctp.device = .config → ¬ joins → e.ctp.device = .config)
    (banks : ∀ n, ¬ clears n → bank e n = bank d n) : CommandKeeps joins clears d e :=
  ⟨⟨keepsLots_of_eq lmg (by rw [rlu]), ⟨queue, score⟩, park_same asu handler station, held_of_eq lmg⟩, station, joined,
    config, fun n bad no => by rw [uncorrectedIn, banks n no]; exact bad⟩

theorem commandKeeps_configureRequest (fields : List CfgField) (d : Device) :
    CommandKeeps False (fun _ => False) d (configureRequest fields d) := by
  unfold configureRequest
  split
  · exact (keeps_reply ..).command
  rename_i config
  split
  · exact (keeps_reply ..).command
  · refine CommandKeeps.trans ?_ (keeps_reply ..).command
    exact commandKeeps_ctp rfl rfl rfl rfl rfl id (score_of_eq rfl rfl rfl id)
      (fun joined => by rw [config] at joined; cases joined) (fun _ _ => config) fun n _ => by cases n <;> rfl

theorem commandKeeps_joinRequest (d : Device) : CommandKeeps True (fun _ => False) d (joinRequest d) := by
  unfold joinRequest
  split
  · exact (keeps_reply ..).command
  rename_i config
  split
  · exact (keeps_reply ..).command
  dsimp only
  refine CommandKeeps.trans ?_ (((keeps_sendTester .query _).trans (keeps_sendHandler .query _)).answered ..).command
  refine commandKeeps_ctp rfl rfl rfl rfl rfl id
    (fun h => ?_) (fun joined => by rw [config] at joined; cases joined) (fun _ no => absurd trivial no)
    fun n _ => by cases n <;> rfl
  have rest : LineAtRest d.fli := lineAtRest_of_not_live h (live_eq_false_of_config config)
  exact scoreSound_of_atRest rest

theorem keeps_restartRequest (d : Device) : Keeps True d (restartRequest d) := by
  refine keeps_joinedOnly (fun d => ?_) d
  refine Keeps.trans ?_ (keeps_reply ..)
  exact keeps_setCtp _ d fun _ => ⟨rfl, rfl, rfl, rfl, rfl, rfl, rfl⟩

theorem commandKeeps_clearFaultRequest (b : Nat) (d : Device) :
    CommandKeeps False (fun n => bankOfCode b = some n) d (clearFaultRequest b d) := by
  unfold clearFaultRequest joinedOnly
  split
  · exact (keeps_reply ..).command
  split
  · exact (keeps_reply ..).command
  · rename_i n named
    refine CommandKeeps.trans ?_ ((keeps_settle _).trans (keeps_reply ..)).command
    refine commandKeeps_ctp (setBank_lmg ..) (setBank_rlu ..) (setBank_asu ..) (by rw [setBank_hpt])
      (by rw [setBank_fli]) (by rw [setBank_fli]; exact id) ?_ (fun joined => ⟨?_, setBank_ctp_config ..⟩)
      (fun config _ => (setBank_ctp_device ..).trans config) fun m other => ?_
    · exact (keepsFli_of_eq (setBank_fli ..) (live_of_ctp (setBank_ctp_device ..) (setBank_ctp_hold ..))).score
    · exact (setBank_ctp_device ..).trans joined
    · rw [bank_setBank, if_neg fun same : n = m => other (same ▸ named)]

/-- The banks that a request frame empties. -/
def FrameClears (c : Instr) (n : BankName) : Prop := ∃ b, c = .clearFault b ∧ bankOfCode b = some n

/-- What a request frame keeps when it is taken. -/
theorem commandKeeps_takenFrame (c : Instr) (d : Device) :
    CommandKeeps (c = .join) (FrameClears c) d (takenFrame c d) := by
  cases c with
  | configure fields => exact (commandKeeps_configureRequest fields d).mono False.elim fun _ => False.elim
  | join => exact (commandKeeps_joinRequest d).mono (fun _ => rfl) fun _ => False.elim
  | clearFault b => exact (commandKeeps_clearFaultRequest b d).mono False.elim fun n named => ⟨b, rfl, named⟩
  | restart => exact (keeps_restartRequest d).command
  | statusRequest => exact (keeps_reply ..).command
  | read => exact (keeps_readRequest ..).command
  | retry => exact (keeps_retryRequest d).command
  | admitLot => exact (keeps_admitRequest ..).command
  | withdraw => exact (keeps_withdrawRequest ..).command
  | dispose => exact (keeps_disposeRequest ..).command
  | placeHold => exact (keeps_placeHoldRequest ..).command
  | placeFloorHold => exact (keeps_placeFloorHoldRequest ..).command
  | liftFloor => exact (keeps_liftFloorRequest ..).command
  | override => exact (keeps_overrideRequest ..).command
  | clearSticky => exact (keeps_clearStickyRequest ..).command
  | setGrade => exact (keeps_setGradeRequest ..).command
  | collect => exact (keeps_collectRequest ..).command
  | disposeRelease => exact (keeps_disposeReleaseRequest ..).command
  | badFrame => exact ((keeps_countFrameError d).trans (keeps_reply ..)).command
  | _ => exact .refl d

theorem commandKeeps_onFrame (c : Instr) (d : Device) :
    CommandKeeps (c = .join) (FrameClears c) d (onFrame c (takenFrame c) d) := by
  unfold onFrame
  split
  · exact .refl d
  · exact (keeps_waitRequest c d).command
  split
  · exact (keeps_waitRequest c d).command
  · exact commandKeeps_takenFrame c d

/-! ## The warm reset (R20, R38, R58, R134, R158, R178, R192) -/

/-- R20: the lot with the open insertion is HELD by its RESTART entry, a staging lot without one is QUEUED. -/
theorem lotStepW_warmLot {P : Prop} (l : Lot) : LotStepW P l (warmLot l) := by
  unfold warmLot
  split
  · rename_i opened
    exact ⟨id, id, fun _ _ _ => .inl opened, fun _ _ _ => opened⟩
  rename_i closed
  split
  · exact lotStepW_outside id rfl (by simpa using closed) (by simp) (by simp [MidInsertion])
  · exact ⟨id, id, fun _ _ => id, fun _ => id⟩

theorem warmLot_closed {l : Lot} (closed : l.opened = false) (h : l.state = .held ↔ holdsLot l = true) :
    (warmLot l).state = .held ↔ holdsLot (warmLot l) = true := by
  unfold warmLot
  rw [closed, if_neg Bool.false_ne_true]
  split
  · rename_i staging
    have clear : ¬ holdsLot l = true := fun held => by rw [h.2 held] at staging; cases staging
    exact ⟨fun held => (by cases held), fun held => absurd held clear⟩
  · exact h

theorem warmLot_opened {l : Lot} (opened : l.opened = true) :
    (warmLot l).state = .held ∧ holdsLot (warmLot l) = holdsLot l := by
  unfold warmLot
  rw [opened, if_pos rfl]
  exact ⟨rfl, rfl⟩

theorem keeps_warmSlot {P : Prop} (i : Fin 8) (d : Device) : Keeps P d (warmSlot i d) := by
  have stored : Weakly P d (if (lotAt d i).any (·.opened) then storeHold i .restart false d else d) := by
    split
    · exact weakly_storeHold ..
    · exact .refl d
  refine ⟨stored.trans (weakly_modifyLot i warmLot _ lotStepW_warmLot), fun a j x hx => ?_⟩
  unfold warmSlot at hx
  dsimp only at hx
  rw [lotAt_modifyLot] at hx
  split at hx
  · subst j
    obtain ⟨l, hl, rfl⟩ := Option.map_eq_some_iff.1 hx
    split at hl
    · rename_i isOpen
      rw [lotAt_storeHold, if_pos rfl] at hl
      obtain ⟨m, hm, rfl⟩ := Option.map_eq_some_iff.1 hl
      have opened : m.opened = true := by simpa [hm] using isOpen
      obtain ⟨state, holds⟩ := warmLot_opened ((applyHold_frame (now d) .restart false m).2.2.1.trans opened)
      exact ⟨fun _ => holds.trans (applyHold_holds ..), fun _ => state⟩
    · rename_i notOpen
      exact warmLot_closed (by simpa [hl] using notOpen) (a i l hl)
  · rename_i other
    have same : lotAt d j = some x := by
      split at hx
      · rwa [lotAt_storeHold, if_neg (Ne.symm other)] at hx
      · exact hx
    exact a j x same

theorem keeps_warmLots {P : Prop} (d : Device) : Keeps P d (warmLots d) :=
  keeps_foldl _ (fun d i => keeps_warmSlot i d) _ _

theorem balances_warmRelease (c : ConfigBlock) {r : Release} (h : RecordBalances r) :
    RecordBalances (warmRelease c r) := by
  unfold warmRelease
  split <;> exact h

theorem queueSound_empty {f : Fli} (queue : f.queue = []) (slot : f.slot = none) : QueueSound f := by
  simp [QueueSound, InQueueOrder, AgesSound, placesTaken, queue, slot]

theorem parkedSound_empty {d : Device} (parked : d.asu.parked = []) (handler : d.hpt.handler = none)
    (target : d.asu.need.target = none) : ParkedSound d := by
  simp [ParkedSound, parked, handler, target]

/-- R200: the reset hold and the pin as a warm reset begins. -/
def heldWarm (byPin : Bool) (d : Device) : Device :=
  { setCtp (fun t => { t with hold := .warm, waiting := [], restartPending := false }) d with
    pins := { d.pins with resetPin := if byPin then .middle else d.pins.resetPin } }

theorem beginWarm_eq (byPin : Bool) (d : Device) : beginWarm byPin d = warmBlocks (heldWarm byPin d) := rfl

theorem bank_heldWarm (byPin : Bool) (d : Device) (n : BankName) : bank (heldWarm byPin d) n = bank d n := by
  cases n <;> rfl

theorem commandKeeps_beginWarm (byPin : Bool) (d : Device) :
    CommandKeeps False (fun _ => False) d (beginWarm byPin d) := by
  have kept : Keeps True (heldWarm byPin d) (warmLots (heldWarm byPin d)) := keeps_warmLots _
  have banks : ∀ n, uncorrectedIn d n → uncorrectedIn (heldWarm byPin d) n := fun n bad => by
    rw [uncorrectedIn, bank_heldWarm]; exact bad
  rw [beginWarm_eq]
  unfold warmBlocks
  split
  · rename_i config
    have rest : ScoreSound d → LineAtRest d.fli := fun h => lineAtRest_of_not_live h (live_eq_false_of_config config)
    exact commandKeeps_ctp rfl rfl rfl rfl rfl id (fun h => scoreSound_of_atRest (rest h))
      (fun joined => ⟨joined, rfl⟩) (fun config _ => config) fun n _ => bank_heldWarm byPin d n
  · dsimp only
    have lots : KeepsLots True d (heldWarm byPin d) := keepsLots_of_eq rfl rfl
    have held : HeldIffHolds d → HeldIffHolds (heldWarm byPin d) := held_of_eq rfl
    generalize warmLots (heldWarm byPin d) = u at kept ⊢
    refine ⟨⟨(lots.trans kept.weak.lots).trans ⟨fun a => ⟨a.1, fun r hr => ?_⟩, id, fun _ => id⟩,
        ⟨fun _ => queueSound_empty rfl rfl, fun _ => scoreSound_of_atRest ⟨rfl, show 0 < 64 by decide⟩⟩,
        fun _ => parkedSound_empty rfl rfl rfl, fun a => kept.held (held a)⟩, kept.weak.ctp.station,
      fun joined => ⟨kept.weak.ctp.device.trans joined, kept.weak.ctp.config⟩,
      fun config _ => kept.weak.ctp.device.trans config, fun n bad _ => kept.weak.ctp.banks n (banks n bad)⟩
    obtain ⟨x, hx, rfl⟩ := List.mem_map.1 hr
    exact balances_warmRelease _ (a.2 x hx)

/-- The device at the end of a warm reset, with no frame waiting any more. -/
def warmOver (d : Device) : Device :=
  { setCtp (fun t => { t with hold := .running, waiting := [] }) d with
    pins := { d.pins with resetPin := .high } }

theorem commandKeeps_resumeBlocks {joins : Prop} {clears : BankName → Prop} (d : Device) (held : d.ctp.hold = .warm) :
    CommandKeeps joins clears d (resumeBlocks (warmOver d)) := by
  have rest : ScoreSound d → LineAtRest d.fli := fun h =>
    lineAtRest_of_not_live h (live_eq_false_of_hold (by simp [held]))
  unfold resumeBlocks
  split
  · exact commandKeeps_ctp rfl rfl rfl rfl rfl id (fun h => scoreSound_of_atRest (rest h))
      (fun joined => ⟨joined, rfl⟩) (fun config _ => config) fun n _ => by cases n <;> rfl
  · dsimp only
    refine CommandKeeps.trans ?_ ((((keeps_sendTester .query _).trans (keeps_sendHandler .query _)).trans
      (keeps_offerAllReview _)).trans (keeps_settle _)).command
    exact commandKeeps_ctp rfl rfl rfl rfl rfl id (fun h => scoreSound_of_atRest (rest h))
      (fun joined => ⟨joined, rfl⟩) (fun config _ => config) fun n _ => by cases n <;> rfl

/-- R195: the frames that waited, each taken as a command of its own. -/
theorem commandKeeps_takeFrames (frames : List Instr) (d : Device) :
    CommandKeeps True (fun n => ∃ c ∈ frames, FrameClears c n) d (takeFrames frames d) := by
  induction frames generalizing d with
  | nil => exact .refl d
  | cons c frames ih =>
    have first := (commandKeeps_onFrame c (refreshPins d)).mono (joins' := True) (fun _ => trivial)
      fun n clears => (⟨c, .head _, clears⟩ : ∃ x ∈ c :: frames, FrameClears x n)
    exact ((keeps_refreshPins d).command.trans first).trans ((ih _).mono id fun n clears => by
      obtain ⟨x, hx, clear⟩ := clears
      exact ⟨x, .tail _ hx, clear⟩)

/-! ## The power-on reset (R212) -/

/-- Everything is afresh after a power-on reset, so every invariant holds. -/
theorem keepsInvariants_powerOn (d : Device) (hold : ResetHold) (pins : Pins) (lines : Lines) :
    KeepsInvariants d (.powerOn hold pins lines) := by
  have empty : ∀ i l, lotAt (.powerOn hold pins lines) i ≠ some l := fun i l h => by
    rw [lotAt_powerOn] at h; cases h
  exact ⟨⟨fun _ => ⟨fun i l h => absurd h (empty i l), fun r hr => by cases hr⟩, fun _ i l h => absurd h (empty i l),
      fun _ _ => ⟨fun i _ l _ h => absurd h (empty i l), fun i l h => absurd h (empty i l)⟩⟩,
    ⟨fun _ => queueSound_empty rfl rfl, fun _ => scoreSound_of_atRest ⟨rfl, show 0 < 64 by decide⟩⟩,
    fun _ => parkedSound_empty rfl rfl rfl, fun _ i l h => absurd h (empty i l)⟩

/-! ## Every command -/

/-- The banks a command may empty: a CLEAR_FAULT its own, the end of a warm reset those of the frames that waited. -/
def MayClear (d : Device) (c : Instr) (n : BankName) : Prop :=
  FrameClears c n ∨ c = .warmResetEnd ∧ ∃ x ∈ d.ctp.waiting, FrameClears x n

/-- JOIN joins the device, at once or where it waited for the end of a warm reset. -/
def MayJoin (c : Instr) : Prop := c = .join ∨ c = .warmResetEnd

/-- The command leaves a power-on reset as it is, held or not. -/
def PowerKept (c : Instr) (d : Device) : Prop :=
  touchesPowerOn c = false ∨ (d.ctp.hold ≠ .powerOn ∧ ∃ b, c = .warmReset b)

theorem commandKeeps_frame (c : Instr) (d : Device) :
    CommandKeeps (MayJoin c) (MayClear d c) d (onFrame c (takenFrame c) d) :=
  (commandKeeps_onFrame c d).mono .inl fun _ => .inl

theorem commandKeeps_warmResetEnd (d : Device) : CommandKeeps (MayJoin .warmResetEnd) (MayClear d .warmResetEnd) d
    (if d.ctp.hold = .warm then takeFrames d.ctp.waiting (resumeBlocks (warmOver d)) else d) := by
  split
  · rename_i held
    exact (commandKeeps_resumeBlocks d held).trans
      ((commandKeeps_takeFrames ..).mono (fun _ => .inr rfl) fun _ clears => .inr ⟨rfl, clears⟩)
  · exact .refl d

theorem keeps_pins {P : Prop} (pins : Pins) (d : Device) : Keeps P d { d with pins } :=
  keeps_of_eq rfl rfl rfl rfl (park_same rfl rfl rfl)

section
variable {joins : Prop} {clears : BankName → Prop} {d : Device}

theorem commandKeeps_onTester {ok : Bool} {act : Device → Device} (h : ∀ d, Keeps True d (act d)) :
    CommandKeeps joins clears d (onTester ok act d) := (keeps_onTester h d).command

theorem commandKeeps_onHandler {ok : Bool} {carried : Option Nat} {act : Device → Device}
    (h : ∀ d, Keeps True d (act d)) : CommandKeeps joins clears d (onHandler ok carried (whenPresent act) d) :=
  (keeps_onHandler (fun _ => keeps_whenPresent h) d).command

theorem commandKeeps_onTimer {running : Bool} {act : Device → Device} (h : ∀ d, Keeps True d (act d)) :
    CommandKeeps joins clears d (onTimer running act d) := (keeps_onTimer fun _ _ => h d).command

theorem commandKeeps_onBulletin {o : Nat} {ok : Bool} {act : Device → Device} (h : ∀ d, Keeps True d (act d)) :
    CommandKeeps joins clears d (onBulletin o ok act d) := (keeps_onBulletin h d).command

theorem commandKeeps_ite {p : Prop} [Decidable p] {e : Device} (h : p → Keeps True d e) :
    CommandKeeps joins clears d (if p then e else d) := by
  split
  · exact (h ‹_›).command
  · exact .refl d

end

/-- Every command that keeps the power up ends in the pins' refresh of a device that the command's rules bind. -/
theorem exec_commandKeeps (c : Instr) (s : State) (kept : PowerKept c s.dev) :
    ∃ e, exec c s = .next (moved s e) ∧ CommandKeeps (MayJoin c) (MayClear s.dev c) s.dev e := by
  cases c with
  -- the request frames of the cell terminal
  | configure fields => exact ⟨_, rfl, commandKeeps_frame (.configure fields) s.dev⟩
  | join => exact ⟨_, rfl, commandKeeps_frame (.join) s.dev⟩
  | restart => exact ⟨_, rfl, commandKeeps_frame (.restart) s.dev⟩
  | statusRequest => exact ⟨_, rfl, commandKeeps_frame (.statusRequest) s.dev⟩
  | read a b c d => exact ⟨_, rfl, commandKeeps_frame (.read a b c d) s.dev⟩
  | retry => exact ⟨_, rfl, commandKeeps_frame (.retry) s.dev⟩
  | admitLot a b c d e f g => exact ⟨_, rfl, commandKeeps_frame (.admitLot a b c d e f g) s.dev⟩
  | withdraw a => exact ⟨_, rfl, commandKeeps_frame (.withdraw a) s.dev⟩
  | dispose a b c d e f => exact ⟨_, rfl, commandKeeps_frame (.dispose a b c d e f) s.dev⟩
  | placeHold a b => exact ⟨_, rfl, commandKeeps_frame (.placeHold a b) s.dev⟩
  | placeFloorHold a b => exact ⟨_, rfl, commandKeeps_frame (.placeFloorHold a b) s.dev⟩
  | liftFloor a => exact ⟨_, rfl, commandKeeps_frame (.liftFloor a) s.dev⟩
  | override a b => exact ⟨_, rfl, commandKeeps_frame (.override a b) s.dev⟩
  | clearSticky a => exact ⟨_, rfl, commandKeeps_frame (.clearSticky a) s.dev⟩
  | clearFault a => exact ⟨_, rfl, commandKeeps_frame (.clearFault a) s.dev⟩
  | setGrade a => exact ⟨_, rfl, commandKeeps_frame (.setGrade a) s.dev⟩
  | collect a => exact ⟨_, rfl, commandKeeps_frame (.collect a) s.dev⟩
  | disposeRelease a b => exact ⟨_, rfl, commandKeeps_frame (.disposeRelease a b) s.dev⟩
  | badFrame a b => exact ⟨_, rfl, commandKeeps_frame (.badFrame a b) s.dev⟩
  | requestFrameDiscarded =>
    refine ⟨_, rfl, ?_⟩
    split
    · exact .refl _
    · exact (keeps_countFrameError _).command
  -- the tester line
  | loaded p => exact ⟨_, rfl, commandKeeps_onTester (keeps_takeLoaded p)⟩
  | loadFail code =>
    refine ⟨_, rfl, commandKeeps_onTester fun d => ?_⟩
    split
    · exact keeps_loadFails ..
    · exact keeps_testerUnexpected d
  | armed => exact ⟨_, rfl, commandKeeps_onTester keeps_takeArmed⟩
  | armFail code => exact ⟨_, rfl, commandKeeps_onTester keeps_takeArmFail⟩
  | touchdown r n entries => exact ⟨_, rfl, commandKeeps_onTester (keeps_touchdown _)⟩
  | maskOk => exact ⟨_, rfl, commandKeeps_onTester keeps_takeMaskOk⟩
  | idle =>
    refine ⟨_, rfl, commandKeeps_onTester fun d => ?_⟩
    split
    · exact keeps_endDrain d
    · exact .refl d
  | down => exact ⟨_, rfl, commandKeeps_onTester keeps_takeDown⟩
  | up p => exact ⟨_, rfl, commandKeeps_onTester (keeps_takeUp p)⟩
  | testerBadMessage framePassed =>
    refine ⟨_, rfl, commandKeeps_ite fun _ => Keeps.trans ?_ (keeps_settle _)⟩
    refine Keeps.trans ?_ (keeps_raise ..)
    split
    · exact keeps_setTpt ..
    · exact .refl _
  | silenceTimerExpiry => exact ⟨_, rfl, commandKeeps_onTimer (keeps_outOfService .silent)⟩
  | loadTimerExpiry =>
    refine ⟨_, rfl, commandKeeps_onTimer fun d => ?_⟩
    split
    · exact keeps_loadFails ..
    · exact .refl d
  | drainTimerExpiry => exact ⟨_, rfl, commandKeeps_onTimer keeps_endDrain⟩
  | testerQueryTimer => exact ⟨_, rfl, commandKeeps_onTimer fun _ => (keeps_sendTester ..).trans (keeps_setTpt ..)⟩
  -- the handler line
  | hello h k =>
    refine ⟨_, rfl, (keeps_onHandler (fun ok d => keeps_takeHello h k d ?_) _).command⟩
    exact (Bool.and_eq_true_iff.1 ok).1
  | state t => exact ⟨_, rfl, commandKeeps_onHandler fun d => keeps_setHpt' _ d rfl⟩
  | soaked t => exact ⟨_, rfl, commandKeeps_onHandler (keeps_takeSoaked t)⟩
  | soakFail code =>
    refine ⟨_, rfl, commandKeeps_onHandler fun d => ?_⟩
    split
    · exact keeps_soakFails ..
    · exact keeps_handlerNote ..
  | kitDone k => exact ⟨_, rfl, commandKeeps_onHandler (keeps_takeKitDone k)⟩
  | kitFail code =>
    refine ⟨_, rfl, commandKeeps_onHandler fun d => ?_⟩
    split
    · exact keeps_kitChangeFails ..
    · exact keeps_handlerNote ..
  | index v continued => exact ⟨_, rfl, commandKeeps_onHandler (keeps_takeIndex v continued)⟩
  | unitLost site => exact ⟨_, rfl, commandKeeps_onHandler (keeps_takeUnitLost site)⟩
  | passEnd p fed => exact ⟨_, rfl, commandKeeps_onHandler (keeps_takePassEnd p fed)⟩
  | bye => exact ⟨_, rfl, (keeps_onHandler (fun _ => keeps_takeBye) _).command⟩
  | handlerBadMessage framePassed carried =>
    refine ⟨_, rfl, commandKeeps_ite fun _ => Keeps.trans ?_ (keeps_settle _)⟩
    refine Keeps.trans ?_ (keeps_raise ..)
    split
    · exact keeps_handlerHeard _
    · exact .refl _
  | absenceTimerExpiry => exact ⟨_, rfl, commandKeeps_onTimer keeps_becomeAbsent⟩
  | leavingTimerExpiry => exact ⟨_, rfl, commandKeeps_onTimer keeps_leavingEnds⟩
  | soakTimerExpiry =>
    refine ⟨_, rfl, commandKeeps_onTimer fun d => ?_⟩
    split
    · exact keeps_soakFails ..
    · exact .refl d
  | kitChangeTimerExpiry => exact ⟨_, rfl, commandKeeps_onTimer (keeps_kitChangeFails .kitTimeout)⟩
  | handlerQueryTimer =>
    refine ⟨_, rfl, commandKeeps_onTimer fun d => Keeps.trans (keeps_sendHandler .query d) ?_⟩
    exact keeps_setHpt' _ _ rfl
  | readyChange level =>
    exact ⟨_, rfl, (keeps_pins { s.dev.pins with ready := level } s.dev).command⟩
  -- throughput
  | periodEnd =>
    refine ⟨_, rfl, commandKeeps_onTimer fun d => Keeps.trans ?_ (keeps_reportIfChanged ..)⟩
    exact keeps_setTpm ..
  | runTimeSecond ms => exact ⟨_, rfl, commandKeeps_ite fun _ => keeps_elapse ms _⟩
  -- the floor line
  | holdReceived o p t r => exact ⟨_, rfl, commandKeeps_onBulletin (keeps_hearHold o p t r)⟩
  | liftReceived o p t r => exact ⟨_, rfl, commandKeeps_onBulletin (keeps_hearLift o t)⟩
  | claimReceived o h k p => exact ⟨_, rfl, commandKeeps_onBulletin (keeps_hearClaim o h p)⟩
  | dockReceived o h k g => exact ⟨_, rfl, commandKeeps_onBulletin (keeps_hearDock o h k _)⟩
  | parkReceived o h k g => exact ⟨_, rfl, commandKeeps_onBulletin (keeps_hearPark o h k _)⟩
  | seekReceived o k p => exact ⟨_, rfl, commandKeeps_onBulletin (keeps_hearSeek k)⟩
  | statusReceived o content => exact ⟨_, rfl, commandKeeps_onBulletin (keeps_hearStatus o content)⟩
  | duplicateStation =>
    exact ⟨_, rfl, commandKeeps_ite fun _ =>
      ((keeps_frameEnds _).trans (keeps_duplicateHeard _)).trans (keeps_settle _)⟩
  | floorFrameDropped =>
    exact ⟨_, rfl, commandKeeps_ite fun _ => (keeps_frameEnds _).trans (keeps_frameDropped _)⟩
  | lineBusy =>
    exact ⟨_, rfl, commandKeeps_ite fun _ => keeps_setFli _ _ fun _ => ⟨rfl, rfl, rfl, rfl, rfl, rfl⟩⟩
  | attemptBegin =>
    refine ⟨_, rfl, ?_⟩
    split
    · exact .refl _
    · rename_i e rest head
      exact commandKeeps_ite (keeps_beginAttempt e rest _ head)
  | arbitrationLost => exact ⟨_, rfl, (keeps_onAttempt (fun _ d _ _ => keeps_returnSlot d) _).command⟩
  | bulletinSent => exact ⟨_, rfl, (keeps_onAttempt (fun sl d slot _ => keeps_bulletinSent sl d slot) _).command⟩
  | transmitError =>
    exact ⟨_, rfl, (keeps_onAttempt (fun sl d slot alive => keeps_transmitError d (by simp [slot]) alive) _).command⟩
  | statusPeriodTimerExpiry => exact ⟨_, rfl, commandKeeps_onTimer keeps_statusPeriod⟩
  | quietTimerExpiry => exact ⟨_, rfl, commandKeeps_onTimer keeps_quietOver⟩
  | peerSilenceTimerExpiry o => exact ⟨_, rfl, commandKeeps_onTimer (keeps_peerSilent o)⟩
  -- the assignment unit and the releases
  | claimTimerExpiry h => exact ⟨_, rfl, commandKeeps_onTimer fun _ => keeps_setEntry ..⟩
  | seekRepeatTimerExpiry => exact ⟨_, rfl, commandKeeps_onTimer keeps_seekRepeat⟩
  | claimWindowExpiry => exact ⟨_, rfl, commandKeeps_onTimer keeps_claimWon⟩
  | dockWaitExpiry =>
    refine ⟨_, rfl, commandKeeps_onTimer fun d => ?_⟩
    split
    · exact keeps_dockWaitOver _ d ‹_›
    · exact .refl d
  | idleTimerExpiry =>
    exact ⟨_, rfl, commandKeeps_onTimer fun d => (keeps_stopIdle d).trans (keeps_parkDocked _)⟩
  | delayExpiry n =>
    exact ⟨_, rfl, commandKeeps_onTimer fun d => keeps_modifyRecord n delayOver d fun _ => balances_delayOver⟩
  -- the resets and the clock
  | powerOnReset byPin => simp [PowerKept, touchesPowerOn] at kept
  | powerOnResetEnd straps => simp [PowerKept, touchesPowerOn] at kept
  | warmReset byPin =>
    obtain ⟨power, -⟩ : s.dev.ctp.hold ≠ .powerOn ∧ _ := kept.resolve_left (by simp [touchesPowerOn])
    refine ⟨_, rfl, ?_⟩
    split
    · exact absurd ‹_› power
    · split
      · exact (keeps_pins { s.dev.pins with resetPin := .middle } s.dev).command
      · exact .refl _
    · split
      · exact (commandKeeps_beginWarm ..).mono False.elim fun _ => False.elim
      · exact .refl _
  | warmResetEnd => exact ⟨_, rfl, commandKeeps_warmResetEnd s.dev⟩
  | joinClockMinute =>
    exact ⟨_, rfl, commandKeeps_ite fun _ => keeps_setCtp _ _ fun _ => ⟨rfl, rfl, rfl, rfl, rfl, rfl, rfl⟩⟩

/-- A power-on reset, its end, and the pin's move from low to middle leave the device afresh or as it is. -/
theorem exec_keepsInvariants_power (c : Instr) (s : State) (power : ¬ PowerKept c s.dev) :
    ∃ e, exec c s = .next (moved s e) ∧ KeepsInvariants s.dev e := by
  obtain ⟨touches, held⟩ := not_or.1 power
  cases c with
  | powerOnReset byPin => exact ⟨_, rfl, keepsInvariants_powerOn ..⟩
  | powerOnResetEnd straps =>
    refine ⟨_, rfl, ?_⟩
    split
    · exact keepsInvariants_powerOn ..
    · exact (Keeps.refl _).invariants
  | warmReset byPin =>
    have low : s.dev.ctp.hold = .powerOn := not_not.1 fun up => held ⟨up, byPin, rfl⟩
    refine ⟨_, rfl, ?_⟩
    rw [low]
    cases byPin with
    | some straps => exact keepsInvariants_powerOn ..
    | none => exact (Keeps.refl _).invariants
  | _ => exact absurd rfl touches

theorem exec_keepsInvariants {c : Instr} {s t : State} (h : exec c s = .next t) : KeepsInvariants s.dev t.dev := by
  have moves : ∃ e, exec c s = .next (moved s e) ∧ KeepsInvariants s.dev e := by
    by_cases kept : PowerKept c s.dev
    · obtain ⟨e, he, keeps⟩ := exec_commandKeeps c s kept
      exact ⟨e, he, keeps.invariants⟩
    · exact exec_keepsInvariants_power c s kept
  obtain ⟨e, he, keeps⟩ := moves
  obtain rfl : moved s e = t := by simpa [he] using h
  exact keeps.trans (keeps_refreshPins e).invariants

theorem step_keepsInvariants {s t : State} (h : step s = .next t) : KeepsInvariants s.dev t.dev := by
  unfold step at h
  split at h
  · obtain rfl := Host.Outcome.next.inj h
    exact (keeps_tick s.dev).invariants
  · rename_i c rest _
    exact exec_keepsInvariants (s := { s with pending := rest }) h

/-! ## The invariants of every step -/

/-- Settles O53: `Keeps` carries the balance through every operation. -/
theorem everyStepKeepsTheAccountsBalanced : Obligations.EveryStepKeepsTheAccountsBalanced :=
  fun _ _ sound taken => (step_keepsInvariants taken).lots.accounts sound

/-- Settles O54: `Keeps` carries both parts; a hold request and a disposition restore the first at their end. -/
theorem everyStepKeepsHeldLotsHeld : Obligations.EveryStepKeepsHeldLotsHeld :=
  fun _ _ held sets taken => ⟨(step_keepsInvariants taken).held held, (step_keepsInvariants taken).lots.holdSets sets⟩

/-- Settles O55: no operation gives a second lot the cell. -/
theorem everyStepKeepsOneCell : Obligations.EveryStepKeepsOneCell :=
  fun _ _ sound taken => (step_keepsInvariants taken).lots.cell trivial sound

/-- Settles O56: an entry goes into the queue at its place, with a new age or the one it had in the slot. -/
theorem everyStepKeepsTheQueueSound : Obligations.EveryStepKeepsTheQueueSound :=
  fun _ _ sound taken => (step_keepsInvariants taken).fli.queue sound

/-- Settles O57: an attempt runs below 64, and its error adds 8. -/
theorem everyStepKeepsTheScoreInRange : Obligations.EveryStepKeepsTheScoreInRange :=
  fun _ _ sound taken => (step_keepsInvariants taken).fli.score sound

/-- Settles O58: the list is pruned at every change of the table, and a handler joins it once FREE and parked here. -/
theorem everyStepKeepsTheParkedListSound : Obligations.EveryStepKeepsTheParkedListSound :=
  fun _ _ sound taken => (step_keepsInvariants taken).park sound

/-- Settles O59: no command but JOIN, taken at once or at a warm reset's end, changes the device state. -/
theorem onlyPowerOnLeavesJoined : Obligations.OnlyPowerOnLeavesJoined := by
  intro c s t taken kept
  obtain ⟨e, he, keeps⟩ := exec_commandKeeps c s kept
  obtain rfl : moved s e = t := by simpa [he] using taken
  exact ⟨keeps.joined, keeps.station, fun config notJoin notEnd => keeps.config config (not_or.2 ⟨notJoin, notEnd⟩)⟩

/-- Settles O60: a fault only raises a bank's severity, and a frame alone empties one. -/
theorem uncorrectedRecordsStand : Obligations.UncorrectedRecordsStand := by
  intro n c s t taken bad kept notCleared notWaiting
  obtain ⟨e, he, keeps⟩ := exec_commandKeeps c s kept
  obtain rfl : moved s e = t := by simpa [he] using taken
  have stands : ¬ MayClear s.dev c n := by
    rintro (⟨b, hc, named⟩ | ⟨hc, x, waits, b, rfl, named⟩)
    · exact notCleared b hc named
    · exact notWaiting hc b waits named
  have kept : uncorrectedIn e n := keeps.banks n bad stands
  exact (keeps_refreshPins (P := True) e).weak.ctp.banks n kept

/-! ## The pins (R55, R56, R208) -/

theorem pinsFollow_refreshPins (d : Device) : PinsFollow (refreshPins d) := ⟨rfl, rfl, rfl⟩

/-- Every command ends in the pins' refresh. -/
theorem exec_eq_moved (c : Instr) (s : State) : ∃ e, exec c s = .next (moved s e) := by
  cases c <;> exact ⟨_, rfl⟩

/-- A lot record changed in what the table's reads do not see. -/
theorem lotList_modifyLot (i : Fin 8) (f : Lot → Lot) (d : Device) :
    lotList (modifyLot i f d) = (lotList d).map fun e => (e.1, if i = e.1 then f e.2 else e.2) := by
  simp only [lotList, List.map_filterMap]
  refine congrArg (fun g => slots.filterMap g) (funext fun j => ?_)
  rw [lotAt_modifyLot]
  split
  · subst j
    cases lotAt d i <;> simp
  · cases lotAt d j <;> simp [*]

theorem pinsFollow_addRunTime (i : Fin 8) (n : Nat) {d : Device} (h : PinsFollow d) :
    PinsFollow (modifyLot i (addRunTime n) d) := by
  obtain ⟨feed, attn, run⟩ := h
  have opened (j) (l : Lot) : (if i = j then addRunTime n l else l).opened = l.opened := by split <;> rfl
  have unseen (j) (l : Lot) : (if i = j then addRunTime n l else l).unseen = l.unseen := by split <;> rfl
  have gateFor_eq (j) (l : Lot) :
      gateFor (modifyLot i (addRunTime n) d) (if i = j then addRunTime n l else l) = gateFor d l := by
    split <;> rfl
  have gate : feedGate (modifyLot i (addRunTime n) d) = feedGate d := by
    simp only [feedGate, openLot, lotList_modifyLot, List.find?_map, Option.any_map, Function.comp_def, opened,
      gateFor_eq]
    rfl
  have seen : attnLevel (modifyLot i (addRunTime n) d) = attnLevel d := by
    simp only [attnLevel, attnUnseen, lotList_modifyLot, List.any_map, Function.comp_def, unseen]
    rfl
  exact ⟨feed.trans gate.symm, attn.trans seen.symm, run⟩

theorem pinsFollow_elapse (ms : Nat) {d : Device} (h : PinsFollow d) : PinsFollow (elapse ms d) := by
  unfold elapse
  dsimp only
  split
  · unfold accrue
    dsimp only
    split
    · exact h
    · exact pinsFollow_addRunTime _ _ h
  · exact h

theorem pinsFollow_tick {d : Device} (h : PinsFollow d) : PinsFollow (tick d) := by
  unfold tick
  split
  · refine pinsFollow_elapse 1 ?_
    obtain ⟨feed, attn, run⟩ := h
    refine ⟨feed, attn.trans ?_, run⟩
    simp only [attnLevel, attnReady, tickRlu, List.any_map, Function.comp_def]
    rfl
  · exact h

/-- Settles O52: a command ends in the pins' refresh, and a millisecond changes nothing that they follow. -/
theorem everyStepKeepsThePinsFollowing : Obligations.EveryStepKeepsThePinsFollowing := by
  intro s t follow taken
  unfold step at taken
  split at taken
  · obtain rfl := Host.Outcome.next.inj taken
    exact pinsFollow_tick follow
  · rename_i c rest _
    obtain ⟨e, he⟩ := exec_eq_moved c { s with pending := rest }
    obtain rfl : moved { s with pending := rest } e = t := by simpa [he] using taken
    exact pinsFollow_refreshPins e

/-! ## Right after reset -/

/-- Settles O51: the lot table, the queues and the lists are empty. -/
theorem invariantsHoldAtReset : Obligations.InvariantsHoldAtReset := by
  have fresh : ∀ i l, lotAt State.reset.dev i ≠ some l := fun i l h => by
    rw [State.reset, lotAt_powerOn] at h
    cases h
  refine ⟨⟨rfl, rfl, rfl⟩, ⟨fun i l h => absurd h (fresh i l), fun r hr => by cases hr⟩, fun i l h => absurd h (fresh i l),
    fun i l h => absurd h (fresh i l), ⟨fun i _ l _ h => absurd h (fresh i l), fun i l h => absurd h (fresh i l)⟩,
    queueSound_empty rfl rfl, scoreSound_of_atRest ⟨rfl, show 0 < 64 by decide⟩, parkedSound_empty rfl rfl rfl⟩

end Sys2Proof.Machine
end

section
/-! What the checks after an event leave as it was (O44): `SettleFrame` is reflexive and transitive, and each check
of `settle` meets it. -/

namespace Sys2Proof.Machine

/-! ## The frame -/

theorem LotKept.refl (l : Lot) : LotKept l l :=
  ⟨rfl, rfl, rfl, rfl, rfl, rfl, rfl, rfl, rfl, rfl, rfl, rfl, rfl, rfl, rfl, rfl, rfl, rfl, rfl, fun _ _ => rfl⟩

theorem LotKept.trans {l m n : Lot} (h : LotKept l m) (k : LotKept m n) : LotKept l n := by
  simp only [LotKept] at h k ⊢
  obtain ⟨h1, h2, h3, h4, h5, h6, h7, h8, h9, h10, h11, h12, h13, h14, h15, h16, h17, h18, h19, same⟩ := h
  obtain ⟨k1, k2, k3, k4, k5, k6, k7, k8, k9, k10, k11, k12, k13, k14, k15, k16, k17, k18, k19, same'⟩ := k
  refine ⟨k1.trans h1, k2.trans h2, k3.trans h3, k4.trans h4, k5.trans h5, k6.trans h6, k7.trans h7, k8.trans h8,
    k9.trans h9, k10.trans h10, k11.trans h11, k12.trans h12, k13.trans h13, k14.trans h14, k15.trans h15,
    k16.trans h16, k17.trans h17, k18.trans h18, k19.trans h19, fun notQueued notStaging => ?_⟩
  obtain rfl := same notQueued notStaging
  exact same' notQueued notStaging

/-- A lot that is QUEUED or in STAGING may change in what its state and its insertion are. -/
theorem lotKept_of_waiting {l m : Lot} (waiting : l.state = .queued ∨ l.state = .staging)
    (same : m = { l with
      state := m.state, resume := m.resume, opened := m.opened, step := m.step, passStarted := m.passStarted
      acc := m.acc, sticky := m.sticky, stats := m.stats, fedCounts := m.fedCounts }) : LotKept l m := by
  rw [same]
  exact ⟨rfl, rfl, rfl, rfl, rfl, rfl, rfl, rfl, rfl, rfl, rfl, rfl, rfl, rfl, rfl, rfl, rfl, rfl, rfl,
    fun notQueued notStaging => absurd waiting (not_or.2 ⟨notQueued, notStaging⟩)⟩

/-- The lots of `e` are those of `d` as far as the frame asks. -/
def LotsKept (d e : Device) : Prop := ∀ i, (lotAt d i = none ∧ lotAt e i = none) ∨
  ∃ l m, lotAt d i = some l ∧ lotAt e i = some m ∧ LotKept l m

theorem lotsKept_of_lmg {d e : Device} (h : e.lmg = d.lmg) : LotsKept d e := fun i => by
  rw [lotAt_of_lmg h i]
  cases hl : lotAt d i with
  | none => exact .inl ⟨rfl, rfl⟩
  | some l => exact .inr ⟨l, l, rfl, rfl, .refl l⟩

theorem lotsKept_modifyLot (i : Fin 8) (f : Lot → Lot) (d : Device)
    (h : ∀ l, lotAt d i = some l → LotKept l (f l)) : LotsKept d (modifyLot i f d) := fun j => by
  rw [lotAt_modifyLot]
  split
  · subst j
    cases hl : lotAt d i with
    | none => exact .inl ⟨rfl, rfl⟩
    | some l => exact .inr ⟨l, f l, rfl, rfl, h l hl⟩
  · exact lotsKept_of_lmg rfl j

theorem LotsKept.trans {d e f : Device} (h : LotsKept d e) (k : LotsKept e f) : LotsKept d f := fun i => by
  rcases h i with ⟨hd, he⟩ | ⟨l, m, hd, he, kept⟩
  · rcases k i with ⟨-, hf⟩ | ⟨x, -, hx, -, -⟩
    · exact .inl ⟨hd, hf⟩
    · rw [he] at hx; cases hx
  · rcases k i with ⟨hx, -⟩ | ⟨x, n, hx, hf, kept'⟩
    · rw [he] at hx; cases hx
    · obtain rfl := Option.some.inj (he.symm.trans hx)
      exact .inr ⟨l, n, hd, hf, kept.trans kept'⟩

theorem SettleFrame.trans {d e f : Device} (h : SettleFrame d e) (k : SettleFrame e f) : SettleFrame d f where
  ctp := by rw [k.ctp, h.ctp]
  sequence := k.sequence.trans h.sequence
  lots := LotsKept.trans h.lots k.lots
  hdu := k.hdu.trans h.hdu
  rlu := k.rlu.trans h.rlu
  fli := by rw [k.fli, h.fli]
  straps := by rw [k.straps, h.straps]
  floorOut := k.floorOut.trans h.floorOut
  terminalOut := k.terminalOut.trans h.terminalOut

/-- An operation that touches TPT, HPT, TPM, ASU, the FEED pin or the tester and handler lines alone. -/
theorem frame_of_eq {d e : Device} (ctp : e.ctp = d.ctp) (lmg : e.lmg = d.lmg) (hdu : e.hdu = d.hdu)
    (rlu : e.rlu = d.rlu) (fli : e.fli = d.fli) (straps : e.pins = { d.pins with feed := e.pins.feed })
    (floorOut : e.lines.floorOut = d.lines.floorOut)
    (terminalOut : e.lines.terminalOut = d.lines.terminalOut) : SettleFrame d e :=
  ⟨by rw [ctp], by rw [lmg], lotsKept_of_lmg lmg, hdu, rlu, by rw [fli], straps, floorOut, terminalOut⟩

theorem SettleFrame.refl (d : Device) : SettleFrame d d := frame_of_eq rfl rfl rfl rfl rfl rfl rfl rfl

theorem frame_modifyLot (i : Fin 8) (f : Lot → Lot) (d : Device)
    (h : ∀ l, lotAt d i = some l → LotKept l (f l)) : SettleFrame d (modifyLot i f d) :=
  ⟨rfl, rfl, lotsKept_modifyLot i f d h, rfl, rfl, rfl, rfl, rfl, rfl⟩

/-- An operation on queue, slot and ages of the floor line. -/
theorem frame_setQueue (q : List QEntry) (s : Option TxSlot) (n : Nat) (d : Device) :
    SettleFrame d { d with fli := { d.fli with queue := q, slot := s, nextAge := n } } :=
  ⟨rfl, rfl, lotsKept_of_lmg rfl, rfl, rfl, rfl, rfl, rfl, rfl⟩

theorem frame_raise (v : Severity) (c : FaultCode) (r : Nat) (d : Device) : SettleFrame d (raise .floor v c r d) :=
  ⟨rfl, rfl, lotsKept_of_lmg rfl, rfl, rfl, rfl, rfl, rfl, rfl⟩

theorem frame_setTpt (f : Tpt → Tpt) (d : Device) : SettleFrame d (setTpt f d) :=
  frame_of_eq rfl rfl rfl rfl rfl rfl rfl rfl

theorem frame_setHpt (f : Hpt → Hpt) (d : Device) : SettleFrame d (setHpt f d) :=
  frame_of_eq rfl rfl rfl rfl rfl rfl rfl rfl

theorem frame_setTpm (f : Tpm → Tpm) (d : Device) : SettleFrame d (setTpm f d) :=
  frame_of_eq rfl rfl rfl rfl rfl rfl rfl rfl

theorem frame_setAsu (a : Asu) (d : Device) : SettleFrame d { d with asu := a } :=
  frame_of_eq rfl rfl rfl rfl rfl rfl rfl rfl

theorem frame_setNeed (n : Need) (d : Device) : SettleFrame d (setNeed n d) := frame_setAsu _ d

theorem frame_setEntry (h : Nat) (e : HandlerEntry) (d : Device) : SettleFrame d (setEntry h e d) :=
  frame_of_eq rfl rfl rfl rfl rfl rfl rfl rfl

theorem frame_sendTester (m : TesterOut) (d : Device) : SettleFrame d (sendTester m d) :=
  frame_of_eq rfl rfl rfl rfl rfl rfl rfl rfl

theorem frame_sendHandler (m : HandlerOut) (d : Device) : SettleFrame d (sendHandler m d) :=
  frame_of_eq rfl rfl rfl rfl rfl rfl rfl rfl

/-! ## Offers

The checks offer CLAIM, PARK and SEEK; none of these, and none of what gives way to them, has an in-play mark. -/

/-- The kinds without an in-play mark (R168). -/
def unmarked (b : Bulletin) : Bool := 3 ≤ kindCode b

theorem clearInPlay_of_unmarked {b : Bulletin} (h : unmarked b = true) (d : Device) : clearInPlay b d = d := by
  cases b with
  | hold => exact absurd h (by simp [unmarked, kindCode])
  | lift => exact absurd h (by simp [unmarked, kindCode])
  | _ => rfl

theorem replaces_unmarked {b q : Bulletin} (h : unmarked b = true) (r : replaces b q = true) : unmarked q = true := by
  cases b <;> cases q <;> simp_all [unmarked, kindCode, replaces, dockParkHandler]

theorem frame_claimLost (d : Device) : SettleFrame d (claimLost d) := by
  unfold claimLost
  split
  · exact frame_setAsu _ d
  · exact .refl d

theorem frame_reportLost {b : Bulletin} (h : unmarked b = true) (d : Device) : SettleFrame d (reportLost b d) := by
  unfold reportLost
  split
  · exact frame_claimLost d
  · rw [clearInPlay_of_unmarked h]; exact .refl d

theorem foldl_reportGone_of_unmarked (l : List QEntry) (h : ∀ e ∈ l, unmarked e.bulletin = true) (d : Device) :
    l.foldl (fun d e => reportGone e.bulletin d) d = d := by
  induction l with
  | nil => rfl
  | cons e l ih =>
    rw [List.foldl_cons, reportGone, clearInPlay_of_unmarked (h e (by simp))]
    exact ih fun x hx => h x (by simp [hx])

theorem removeQueued_of_unmarked {p : Bulletin → Bool} (h : ∀ b, p b = true → unmarked b = true) (d : Device) :
    removeQueued p d =
      { d with fli := { d.fli with queue := d.fli.queue.filter fun e => !p e.bulletin } } := by
  unfold removeQueued
  exact foldl_reportGone_of_unmarked _ (fun e he => h _ (List.mem_filter.1 he).2) _

theorem frame_enqueue (b : Bulletin) (d : Device) : SettleFrame d (enqueue b d) := frame_setQueue _ _ _ d

theorem frame_removeQueued {p : Bulletin → Bool} (h : ∀ b, p b = true → unmarked b = true) (d : Device) :
    SettleFrame d (removeQueued p d) := by
  rw [removeQueued_of_unmarked h]
  exact frame_setQueue _ _ _ d

theorem frame_refuseOffer {b : Bulletin} (h : unmarked b = true) (d : Device) : SettleFrame d (refuseOffer b d) := by
  cases b with
  | hold => exact absurd h (by simp [unmarked, kindCode])
  | lift => exact absurd h (by simp [unmarked, kindCode])
  | claim => exact (frame_raise ..).trans (frame_claimLost _)
  | dock => exact frame_raise ..
  | park => exact frame_raise ..
  | seek => exact frame_raise ..
  | status => exact frame_raise ..

theorem frame_offer {b : Bulletin} (h : unmarked b = true) (d : Device) : SettleFrame d (offer b d) := by
  have statusUnmarked : ∀ b, isStatus b = true → unmarked b = true := fun b h => by
    cases b <;> simp_all [isStatus, unmarked, kindCode]
  have seekUnmarked : ∀ b, isSeek b = true → unmarked b = true := fun b h => by
    cases b <;> simp_all [isSeek, unmarked, kindCode]
  unfold offer
  split
  · exact frame_reportLost h d
  split
  · exact (frame_removeQueued (fun _ => replaces_unmarked h) d).trans (frame_enqueue ..)
  split
  · exact frame_enqueue b d
  split
  · exact (frame_removeQueued statusUnmarked d).trans (frame_enqueue ..)
  split
  · exact (frame_removeQueued seekUnmarked d).trans (frame_enqueue ..)
  · exact frame_refuseOffer h d

theorem frame_removeClaim (d : Device) : SettleFrame d (removeClaim d) := by
  have claimUnmarked : ∀ b, isClaim b = true → unmarked b = true := fun b h => by
    cases b <;> simp_all [isClaim, unmarked, kindCode]
  exact (frame_removeQueued claimUnmarked d).trans (frame_setQueue _ _ _ _)

/-! ## The dock and the need -/

theorem frame_undock (d : Device) : SettleFrame d (undock d) := by
  unfold undock
  split <;> exact frame_of_eq rfl rfl rfl rfl rfl rfl rfl rfl

theorem frame_parkEntry (h k : Nat) (g : Option Grade) (d : Device) : SettleFrame d (parkEntry h k g d) :=
  ((frame_offer rfl d).trans (frame_setEntry ..)).trans (frame_setAsu _ _)

theorem frame_parkDocked (d : Device) : SettleFrame d (parkDocked d) := by
  unfold parkDocked
  split
  · exact .refl d
  · exact (frame_undock d).trans (frame_parkEntry ..)

theorem frame_endNeed (d : Device) : SettleFrame d (endNeed d) := by
  unfold endNeed
  refine SettleFrame.trans (e := _) ?_ (frame_setNeed ..)
  split
  · dsimp only
    split
    · exact (frame_removeClaim d).trans (frame_setEntry ..)
    · exact frame_removeClaim d
  · exact frame_removeClaim d
  · exact frame_parkEntry ..
  · exact .refl d

theorem frame_kitOrder (k : Nat) (d : Device) : SettleFrame d (kitOrder k d) :=
  (frame_sendHandler ..).trans (frame_setHpt ..)

theorem frame_offerClaim (h : Nat) (d : Device) : SettleFrame d (offerClaim h d) :=
  (frame_setNeed ..).trans (frame_offer rfl _)

theorem frame_offerSeek (d : Device) : SettleFrame d (offerSeek d) := (frame_offer rfl d).trans (frame_setNeed ..)

theorem frame_seekEval (entry : Bool) (d : Device) : SettleFrame d (seekEval entry d) := by
  unfold seekEval
  dsimp only
  split
  · exact frame_setNeed ..
  split
  · exact (frame_setNeed ..).trans (frame_offerClaim ..)
  split
  · exact (frame_kitOrder ..).trans (frame_setNeed ..)
  split
  · exact frame_offerSeek d
  · exact .refl d

theorem frame_toSeeking (d : Device) : SettleFrame d (toSeeking d) := (frame_setNeed ..).trans (frame_seekEval ..)

theorem frame_stagingReport (d : Device) : SettleFrame d (stagingReport d) := by
  unfold stagingReport
  dsimp only
  split
  · exact .refl d
  refine SettleFrame.trans (frame_setAsu { d.asu with staging := (stagingLot d).map fun e => e.2.id } d) ?_
  split
  · split
    · exact .refl _
    split
    · exact frame_setNeed ..
    · exact frame_endNeed _
  · exact frame_endNeed _
  · exact .refl _

theorem frame_needEval (d : Device) : SettleFrame d (needEval d) := by
  unfold needEval
  split
  case h_1 =>
    split
    · split
      · exact (frame_setNeed ..).trans (frame_toSeeking _)
      · exact .refl d
    · exact .refl d
  case h_5 =>
    split
    · exact .refl d
    split
    · exact frame_toSeeking d
    · exact frame_endNeed d
  case h_2 =>
    split
    · exact frame_seekEval ..
    · exact frame_endNeed d
  all_goals
    split
    · exact .refl d
    · exact frame_endNeed d

theorem frame_asuEval (d : Device) : SettleFrame d (asuEval d) := by
  have wonParked (d) : SettleFrame d (wonPark d) := by
    unfold wonPark
    split
    · exact frame_parkDocked d
    · exact .refl d
  have gradeParked (d) : SettleFrame d (gradeCPark d) := by
    unfold gradeCPark
    split
    · exact frame_parkDocked d
    · exact .refl d
  exact (((frame_stagingReport d).trans (frame_needEval _)).trans (wonParked _)).trans (gradeParked _)

/-! ## The checks of the lot table, the tester and the handler -/

theorem frame_stagingSelect (d : Device) : SettleFrame d (stagingSelect d) := by
  unfold stagingSelect
  split
  · exact .refl d
  split
  · rename_i i l picked
    obtain ⟨hl, queued⟩ := firstInQueueOrder_some picked
    refine frame_modifyLot i _ d fun m hm => lotKept_of_waiting (.inl ?_) rfl
    obtain rfl := Option.some.inj (hl.symm.trans hm)
    simpa using queued
  · exact .refl d

theorem frame_loadCheck (d : Device) : SettleFrame d (loadCheck d) := by
  unfold loadCheck
  dsimp only
  split
  · exact frame_setTpt ..
  split <;> exact frame_of_eq rfl rfl rfl rfl rfl rfl rfl rfl

theorem frame_soakCheck (d : Device) : SettleFrame d (soakCheck d) := by
  unfold soakCheck
  dsimp only
  split
  · exact frame_setHpt ..
  split <;> exact frame_of_eq rfl rfl rfl rfl rfl rfl rfl rfl

theorem frame_sendArm (l : Lot) (mask : BitVec 8) (d : Device) : SettleFrame d (sendArm l mask d) := by
  unfold sendArm
  exact (frame_sendTester ..).trans (frame_setTpt ..)

theorem frame_insertionStart {i : Fin 8} {l : Lot} {d : Device} (hl : lotAt d i = some l)
    (staging : l.state = .staging) : SettleFrame d (insertionStart i l d) := by
  unfold insertionStart
  refine SettleFrame.trans ?_ (frame_sendArm ..)
  refine SettleFrame.trans ?_ (frame_setTpm ..)
  refine SettleFrame.trans ?_ (frame_setHpt ..)
  refine SettleFrame.trans ?_ (frame_setTpt ..)
  refine frame_modifyLot i openInsertion d fun m hm => lotKept_of_waiting (.inr ?_) rfl
  exact Option.some.inj (hl.symm.trans hm) ▸ staging

theorem modifyLot_modifyLot (i : Fin 8) (f g : Lot → Lot) (d : Device) :
    modifyLot i f (modifyLot i g d) = modifyLot i (f ∘ g) d := by
  simp only [modifyLot, lotAt_putLot_same, putLot_putLot, Option.map_map]

theorem sendHandler_modifyLot (m : HandlerOut) (i : Fin 8) (f : Lot → Lot) (d : Device) :
    sendHandler m (modifyLot i f d) = modifyLot i f (sendHandler m d) := rfl

theorem setHpt_modifyLot (u : Hpt → Hpt) (i : Fin 8) (f : Lot → Lot) (d : Device) :
    setHpt u (modifyLot i f d) = modifyLot i f (setHpt u d) := rfl

/-- A lot in STAGING enters a pass: state, resume step and pass-started mark. -/
theorem frame_enterPass {i : Fin 8} {l : Lot} {d : Device} (k : Nat) (hl : lotAt d i = some l)
    (staging : l.state = .staging) : SettleFrame d (enterPass i l k d) := by
  have here (m) (hm : lotAt d i = some m) : m.state = .queued ∨ m.state = .staging :=
    .inr (Option.some.inj (hl.symm.trans hm) ▸ staging)
  unfold enterPass startPass
  dsimp only
  split
  · exact frame_modifyLot i _ d fun m hm => lotKept_of_waiting (here m hm) rfl
  · rw [sendHandler_modifyLot, setHpt_modifyLot, modifyLot_modifyLot]
    refine SettleFrame.trans ?_ (frame_modifyLot i _ _ fun m hm => lotKept_of_waiting (here m hm) rfl)
    exact frame_of_eq rfl rfl rfl rfl rfl rfl rfl rfl

theorem frame_readyCheck (d : Device) : SettleFrame d (readyCheck d) := by
  unfold readyCheck
  split
  · exact .refl d
  rename_i i l hs
  obtain ⟨hl, staging⟩ := stagingLot_some hs
  split
  · split
    · exact frame_insertionStart hl staging
    · exact .refl d
  split
  · exact .refl d
  split
  · split
    · exact frame_enterPass _ hl staging
    · exact .refl d
  split
  · exact frame_sendArm ..
  · exact .refl d

theorem frame_restoreCheck (d : Device) : SettleFrame d (restoreCheck d) := by
  unfold restoreCheck
  split
  · exact .refl d
  split
  · exact frame_sendArm ..
  · exact .refl d

/-! ## Settling -/

theorem frame_settleOnce (d : Device) : SettleFrame d (settleOnce d) := by
  have pins (d) : SettleFrame d (queryEval (idleEval (feedEval d))) := frame_of_eq rfl rfl rfl rfl rfl rfl rfl rfl
  exact ((((((frame_stagingSelect d).trans (frame_asuEval _)).trans (frame_loadCheck _)).trans
    (frame_soakCheck _)).trans (frame_readyCheck _)).trans (frame_restoreCheck _)).trans (pins _)

/-- Settles O44: the frame of each check, three rounds of them. -/
theorem settlingLeavesTheRest : Obligations.SettlingLeavesTheRest := by
  intro d
  unfold settle
  split
  · exact ((frame_settleOnce d).trans (frame_settleOnce _)).trans (frame_settleOnce _)
  · exact .refl d

end Sys2Proof.Machine
end

section
/-! The rules over all states of tier 2 that stand on one operation each: the balance of the accounts (O43), a fault
bank (O45), queue order (O46), free tags and numbers (O47), recall and return (O48) and the CRC (O49). -/

namespace Sys2Proof.Machine

/-! ## The close summary (R69, R70, R76) -/

theorem sum_map_filter_bins (f : Fin 16 → Nat) (p : Fin 16 → Bool) (l : List (Fin 16)) :
    ((l.filter p).map f).sum = (l.map fun b => if p b then f b else 0).sum := by
  induction l with
  | nil => rfl
  | cons b l ih => cases h : p b <;> simp [h, ih]

/-- A sum over FINAL is the sum over the list of the bins named. -/
theorem finalSum_eq_filter (a : Accum) (p : Fin 16 → Bool) :
    finalSum a p = ((binList.filter p).map fun b => a.final[b]).sum := by
  rw [finalSum, foldl_cond_add, Nat.zero_add, sum_map_filter_bins]

theorem mem_binList (b : Fin 16) : b ∈ binList := by revert b; decide

theorem binList_nodup : binList.Nodup := by decide

/-- `n` is the sum of FINAL over the bins that satisfy `p`. -/
def SumOfFinal (a : Accum) (p : Fin 16 → Prop) (n : Nat) : Prop :=
  ∃ bins : List (Fin 16), bins.Nodup ∧ (∀ b, b ∈ bins ↔ p b) ∧ n = (bins.map fun b => a.final[b]).sum

theorem sumOfFinal_finalSum (a : Accum) {q : Fin 16 → Bool} {p : Fin 16 → Prop} (h : ∀ b, q b = true ↔ p b) :
    SumOfFinal a p (finalSum a q) :=
  ⟨binList.filter q, binList_nodup.filter q, fun b => by simp [mem_binList, h], finalSum_eq_filter a q⟩

/-- Settles O43: each counting rule's balance lemma; good and reject are filtered sums over the bins. -/
theorem countingKeepsTheBalance : Obligations.CountingKeepsTheBalance := by
  refine ⟨fun c l b t balanced => ⟨balanced_firstPassAcc c l b balanced, balanced_retestAcc c l b balanced,
    balanced_passBoundary balanced, ?_⟩, fun c l t => ?_⟩
  · have settled := balanced_settleAcc balanced
    exact ⟨_, rfl, rfl, rfl, rfl, rfl, closeBalances_of_balanced c l.qIn settled ⟨rfl, rfl⟩, rfl, rfl, settled⟩
  · refine ⟨_, SumOfFinal l.acc, fun p n => Iff.rfl, ?_, ?_, rfl, rfl, rfl, rfl, rfl⟩
    · exact sumOfFinal_finalSum (settleAcc l.acc) fun b => beq_iff_eq
    · exact sumOfFinal_finalSum (settleAcc l.acc)
        (q := fun b => binClass c b == some .fail || binClass c b == some .retest) fun b => by simp

/-! ## A fault bank (R206) -/

/-- What a bank holds after the faults `fs`, if there were any. -/
def WorstOf (fs : List FaultRecord) (b : FaultBank) : Prop :=
  ∃ r before after, b.record = some r ∧ fs = before ++ r :: after ∧
    (∀ f ∈ before, f.severity.rank < r.severity.rank) ∧ ∀ f ∈ after, f.severity.rank ≤ r.severity.rank

theorem worstOf_takeFault {fs : List FaultRecord} {b : FaultBank} (h : WorstOf fs b) (f : FaultRecord) :
    WorstOf (fs ++ [f]) (takeFault b f) := by
  obtain ⟨r, before, after, held, rfl, less, most⟩ := h
  unfold takeFault
  rw [held]
  dsimp only
  split
  · rename_i worse
    refine ⟨f, before ++ r :: after, [], rfl, rfl, fun x hx => ?_, by simp⟩
    rcases List.mem_append.1 hx with hx | hx
    · exact (less x hx).trans worse
    rcases List.mem_cons.1 hx with rfl | hx
    · exact worse
    · exact (most x hx).trans_lt worse
  · rename_i notWorse
    refine ⟨r, before, after ++ [f], rfl, by simp, less, fun x hx => ?_⟩
    rcases List.mem_append.1 hx with hx | hx
    · exact most x hx
    · obtain rfl := List.mem_singleton.1 hx
      omega

theorem worstOf_foldl_takeFault {fs : List FaultRecord} (some : fs ≠ []) :
    WorstOf fs (fs.foldl takeFault ⟨none, false⟩) := by
  induction fs using List.reverseRecOn with
  | nil => exact absurd rfl some
  | append_singleton fs f ih =>
    rw [List.foldl_concat]
    by_cases h : fs = []
    · subst h
      exact ⟨f, [], [], rfl, rfl, by simp, by simp⟩
    · exact worstOf_takeFault (ih h) f

/-- OVER is set by the second fault and stays set. -/
theorem foldl_takeFault_over (fs : List FaultRecord) :
    (fs.foldl takeFault ⟨none, false⟩).overFlag = true ↔ 2 ≤ fs.length := by
  induction fs using List.reverseRecOn with
  | nil => simp
  | append_singleton fs f _ =>
    rw [List.foldl_concat, List.length_append]
    cases fs with
    | nil => simp [takeFault]
    | cons g fs =>
      obtain ⟨r, _, _, held, _⟩ := worstOf_foldl_takeFault (List.cons_ne_nil g fs)
      rw [takeFault_overFlag_of_record (by rw [held]; simp)]
      simp

/-- Settles O45: by induction on the faults, the last one taken last. -/
theorem faultBankKeepsTheWorst : Obligations.FaultBankKeepsTheWorst := by
  refine ⟨fun fs b hb => ?_, fun v code r d => ⟨_, rfl, rfl, rfl, rfl, rfl, rfl⟩⟩
  subst hb
  exact ⟨fun h => by rw [h]; rfl, fun h => worstOf_foldl_takeFault h, foldl_takeFault_over fs⟩

/-! ## Queue order (R5, R6) -/

theorem countP_lt_of_mem {α : Type} {p q : α → Bool} {l : List α} (mono : ∀ x, p x = true → q x = true) {x : α}
    (hx : x ∈ l) (hq : q x = true) (hp : p x = false) : l.countP p < l.countP q := by
  obtain ⟨s, t, rfl⟩ := List.append_of_mem hx
  have hs := List.countP_mono_left (l := s) (p := p) (q := q) fun y _ => mono y
  have ht := List.countP_mono_left (l := t) (p := p) (q := q) fun y _ => mono y
  simp only [List.countP_append, List.countP_cons, hq, hp]
  simp
  omega

/-- The rank renumbering gives to a sequence number: how many lots have it or a lower one. -/
def seqRank (d : Device) (n : Nat) : Nat := (lotList d).countP fun e => e.2.seq ≤ n

theorem seqRank_lt_iff {d : Device} {j : Fin 8} {m : Lot} (hm : lotAt d j = some m) (n : Nat) :
    seqRank d n < seqRank d m.seq ↔ n < m.seq := by
  constructor
  · intro lower
    by_contra high
    refine absurd lower (not_lt.2 (List.countP_mono_left fun e _ he => ?_))
    simp only [decide_eq_true_eq] at he ⊢
    omega
  · intro less
    refine countP_lt_of_mem (fun e he => ?_) (mem_lotList.2 hm) (by simp) (by simpa using less)
    simp only [decide_eq_true_eq] at he ⊢
    omega

theorem queueBefore_iff (a b : Lot) :
    queueBefore a b = true ↔ a.cls < b.cls ∨ (a.cls = b.cls ∧ a.seq < b.seq) := by simp [queueBefore]

theorem queueBefore_false_trans {a b c : Lot} (h : queueBefore a b = false) (k : queueBefore b c = false) :
    queueBefore a c = false := by
  rw [← Bool.not_eq_true, queueBefore_iff] at *
  omega

theorem queueBefore_asymm {a b : Lot} (h : queueBefore a b = true) : queueBefore b a = false := by
  rw [← Bool.not_eq_true, queueBefore_iff] at *
  omega

theorem queueBefore_irrefl (a : Lot) : queueBefore a a = false := by
  rw [← Bool.not_eq_true, queueBefore_iff]
  omega

/-- One lot more in the search of `firstInQueueOrder`. -/
def earlier (best : Option (Fin 8 × Lot)) (e : Fin 8 × Lot) : Option (Fin 8 × Lot) :=
  match best with
  | none => some e
  | some b => if queueBefore e.2 b.2 then some e else some b

theorem firstInQueueOrder_eq (d : Device) (p : Lot → Bool) :
    firstInQueueOrder d p = ((lotList d).filter fun e => p e.2).foldl earlier none := rfl

theorem foldl_earlier_some (es : List (Fin 8 × Lot)) (b : Fin 8 × Lot) :
    ∃ x, es.foldl earlier (some b) = some x ∧ queueBefore b.2 x.2 = false ∧
      ∀ e ∈ es, queueBefore e.2 x.2 = false := by
  induction es generalizing b with
  | nil => exact ⟨b, rfl, queueBefore_irrefl _, by simp⟩
  | cons e es ih =>
    rw [List.foldl_cons, earlier]
    split
    · rename_i first
      obtain ⟨x, hx, he, rest⟩ := ih e
      refine ⟨x, hx, queueBefore_false_trans (queueBefore_asymm first) he, fun y hy => ?_⟩
      rcases List.mem_cons.1 hy with rfl | hy
      · exact he
      · exact rest y hy
    · rename_i notFirst
      obtain ⟨x, hx, hb, rest⟩ := ih b
      refine ⟨x, hx, hb, fun y hy => ?_⟩
      rcases List.mem_cons.1 hy with rfl | hy
      · exact queueBefore_false_trans (Bool.not_eq_true _ ▸ notFirst) hb
      · exact rest y hy

theorem firstInQueueOrder_eq_none_iff (d : Device) (p : Lot → Bool) :
    firstInQueueOrder d p = none ↔ ∀ i l, lotAt d i = some l → p l = false := by
  rw [firstInQueueOrder_eq]
  constructor
  · intro h i l hl
    by_contra hp
    cases hs : (lotList d).filter fun e => p e.2 with
    | nil =>
      refine absurd (List.filter_eq_nil_iff.1 hs (i, l) (mem_lotList.2 hl)) ?_
      simpa using hp
    | cons e es =>
      obtain ⟨x, hx, -⟩ := foldl_earlier_some es e
      rw [hs, List.foldl_cons] at h
      exact absurd (h.symm.trans hx) (by simp)
  · intro h
    have : (lotList d).filter (fun e => p e.2) = [] :=
      List.filter_eq_nil_iff.2 fun e he => by simp [h e.1 e.2 (mem_lotList.1 he)]
    rw [this]
    rfl

theorem firstInQueueOrder_first {d : Device} {p : Lot → Bool} {i : Fin 8} {l : Lot}
    (h : firstInQueueOrder d p = some (i, l)) {j : Fin 8} {m : Lot} (hm : lotAt d j = some m) (pm : p m = true) :
    queueBefore m l = false := by
  have mem : (j, m) ∈ (lotList d).filter fun e => p e.2 := List.mem_filter.2 ⟨mem_lotList.2 hm, pm⟩
  rw [firstInQueueOrder_eq] at h
  cases hs : (lotList d).filter fun e => p e.2 with
  | nil => rw [hs] at mem; cases mem
  | cons e es =>
    obtain ⟨x, hx, he, rest⟩ := foldl_earlier_some es e
    rw [hs, List.foldl_cons] at h
    obtain rfl : x = (i, l) := Option.some.inj (hx.symm.trans h)
    rw [hs] at mem
    rcases List.mem_cons.1 mem with heq | hmem
    · rw [← heq] at he; exact he
    · exact rest _ hmem

/-- Settles O46: a lot's rank is the number of lots up to it, so ranks compare as sequence numbers do. -/
theorem queueOrderAndRenumbering : Obligations.QueueOrderAndRenumbering := by
  refine ⟨fun d _ => ?_, fun d p => ⟨firstInQueueOrder_eq_none_iff d p, fun i l h => ?_⟩⟩
  · have rank {i l} (hl : lotAt d i = some l) : seqRank d ((lotAt d i).elim 0 (·.seq)) = seqRank d l.seq := by
      rw [hl]; rfl
    refine ⟨fun i => seqRank d ((lotAt d i).elim 0 (·.seq)), rfl, fun i => ?_, fun i l hl => ?_,
      fun i j l m hl hm => ?_⟩
    · rw [lotAt_renumber]
      cases hl : lotAt d i with
      | none => rfl
      | some l =>
        simp only [Option.map_some, rank hl]
        rfl
    · dsimp only
      rw [rank hl]
      exact ⟨List.countP_pos_iff.2 ⟨(i, l), mem_lotList.2 hl, by simp⟩, List.countP_le_length⟩
    · dsimp only
      rw [rank hl, rank hm]
      exact seqRank_lt_iff hm _
  · obtain ⟨hl, pl⟩ := firstInQueueOrder_some h
    exact ⟨hl, pl, fun j m hm pm => firstInQueueOrder_first h hm pm⟩

/-! ## The next free tag and number (R168, R182) -/

/-- The number after `n` of 1 to `top`, the last being followed by 1. -/
def cycleAfter (top n : Nat) : Nat := if n ≥ top then 1 else n + 1

theorem cycleAfter_mem (top n : Nat) (h : 0 < top) : 1 ≤ cycleAfter top n ∧ cycleAfter top n ≤ top := by
  unfold cycleAfter
  split <;> omega

theorem iterate_cycleAfter {top t : Nat} (low : 1 ≤ t) (high : t ≤ top) (i : Nat) :
    (cycleAfter top)^[i] t = (t - 1 + i) % top + 1 := by
  induction i with
  | zero => rw [Function.iterate_zero_apply, Nat.mod_eq_of_lt] <;> omega
  | succ i ih =>
    rw [Function.iterate_succ_apply', ih, cycleAfter, ← Nat.add_assoc, Nat.add_mod (t - 1 + i) 1 top]
    have bound := Nat.mod_lt (t - 1 + i) (show 0 < top by omega)
    generalize (t - 1 + i) % top = r at bound
    by_cases one : top = 1
    · subst one; simp; omega
    rw [Nat.mod_eq_of_lt (show 1 < top by omega)]
    split
    · obtain rfl : r + 1 = top := by omega
      rw [Nat.mod_self]
    · rw [Nat.mod_eq_of_lt (by omega)]

theorem iterate_cycleAfter_inj {top t i j : Nat} (low : 1 ≤ t) (high : t ≤ top) (hi : i < top) (hj : j < top)
    (same : (cycleAfter top)^[i] t = (cycleAfter top)^[j] t) : i = j := by
  rw [iterate_cycleAfter low high, iterate_cycleAfter low high] at same
  have cong : t - 1 + i ≡ t - 1 + j [MOD top] := Nat.succ.inj same
  exact (Nat.ModEq.add_left_cancel' _ cong).eq_of_lt_of_lt hi hj

/-- The first number from `t` on that is not in use, within `fuel` tries: `freeTag` and `freeNumber` are this. -/
def firstFree (next : Nat → Nat) (used : Nat → Bool) : Nat → Nat → Nat
  | 0, t => t
  | fuel + 1, t => if used t then firstFree next used fuel (next t) else t

theorem freeTag_eq_firstFree (d : Device) (fuel t : Nat) :
    freeTag d fuel t = firstFree tagAfter (tagInUse d) fuel t := by
  induction fuel generalizing t with
  | zero => rfl
  | succ fuel ih => rw [freeTag, firstFree, ih]

theorem freeNumber_eq_firstFree (d : Device) (fuel t : Nat) :
    freeNumber d fuel t = firstFree numberAfter (numberHeld d) fuel t := by
  induction fuel generalizing t with
  | zero => rfl
  | succ fuel ih => rw [freeNumber, firstFree, ih]

/-- The search ends at the first number not in use, or with its fuel. -/
theorem firstFree_eq_iterate (next : Nat → Nat) (used : Nat → Bool) (fuel t : Nat) :
    ∃ k ≤ fuel, firstFree next used fuel t = next^[k] t ∧ (k < fuel → used (next^[k] t) = false) ∧
      ∀ j < k, used (next^[j] t) = true := by
  induction fuel generalizing t with
  | zero => exact ⟨0, le_rfl, rfl, by simp, by simp⟩
  | succ fuel ih =>
    unfold firstFree
    split
    · rename_i inUse
      obtain ⟨k, hk, eq, free, before⟩ := ih (next t)
      refine ⟨k + 1, by omega, eq, fun h => free (by omega), fun j hj => ?_⟩
      cases j with
      | zero => exact inUse
      | succ j => exact before j (by omega)
    · rename_i isFree
      exact ⟨0, by omega, rfl, fun _ => by simpa using isFree, by simp⟩

/-- With fewer numbers in use than tries, and the tries all different, the search finds one. -/
theorem firstFree_spec {top t fuel : Nat} {used : Nat → Bool} {inUse : List Nat} (low : 1 ≤ t) (high : t ≤ top)
    (tries : fuel ≤ top) (all : ∀ n, used n = true → n ∈ inUse) (few : inUse.length < fuel) :
    ∃ k ≤ inUse.length, firstFree (cycleAfter top) used fuel t = (cycleAfter top)^[k] t ∧
      used ((cycleAfter top)^[k] t) = false ∧ ∀ j < k, used ((cycleAfter top)^[j] t) = true := by
  obtain ⟨k, hk, eq, free, before⟩ := firstFree_eq_iterate (cycleAfter top) used fuel t
  have bound : k ≤ inUse.length := by
    have distinct : ((List.range k).map fun j => (cycleAfter top)^[j] t).Nodup :=
      List.nodup_range.map_on fun i hi j hj same => by
        rw [List.mem_range] at hi hj
        exact iterate_cycleAfter_inj low high (by omega) (by omega) same
    have within : ((List.range k).map fun j => (cycleAfter top)^[j] t) ⊆ inUse := fun n hn => by
      obtain ⟨j, hj, rfl⟩ := List.mem_map.1 hn
      exact all _ (before j (List.mem_range.1 hj))
    simpa using (distinct.subperm within).length_le
  exact ⟨k, bound, eq, free (by omega), before⟩

theorem tagInUse_mem {d : Device} {n : Nat} (h : tagInUse d n = true) :
    n ∈ d.hdu.table.map (·.tag) ++ d.hdu.holdsInPlay ++ d.hdu.liftsInPlay := by
  simp only [tagInUse, Bool.or_eq_true, List.any_eq_true, Bool.and_eq_true, beq_iff_eq, List.contains_iff_mem] at h
  simp only [List.mem_append, List.mem_map]
  rcases h with (⟨e, he, -, ht⟩ | h) | h
  · exact .inl (.inl ⟨e, he, ht⟩)
  · exact .inl (.inr h)
  · exact .inr h

/-- Settles O47: the tries are all different, so they outnumber those in use. -/
theorem nextTagAndNumberAreFree : Obligations.NextTagAndNumberAreFree := by
  refine ⟨fun d _ few => ?_, fun d _ few => ?_⟩
  · have first := cycleAfter_mem 255 d.hdu.ownTag (by decide)
    obtain ⟨k, -, eq, free, before⟩ := firstFree_spec (fuel := 255) first.1 first.2 le_rfl
      (fun n => tagInUse_mem) (by simpa [Nat.add_assoc] using few)
    have next : nextTag d = (cycleAfter 255)^[k] (cycleAfter 255 d.hdu.ownTag) :=
      (freeTag_eq_firstFree d 255 _).trans eq
    rw [← next] at free
    refine ⟨k, next, ?_, ?_, free, before⟩ <;> rw [next, iterate_cycleAfter first.1 first.2] <;> omega
  · have first := cycleAfter_mem 65535 d.rlu.counter (by decide)
    have held (n : Nat) : numberHeld d n = true ↔ n ∈ d.rlu.records.map (·.number) := by simp [numberHeld]
    obtain ⟨k, bound, eq, free, before⟩ := firstFree_spec (fuel := 7) first.1 first.2 (by decide)
      (fun n => (held n).1) (by simpa using Nat.lt_succ_of_le few)
    have next : nextNumber d = (cycleAfter 65535)^[k] (cycleAfter 65535 d.rlu.counter) :=
      (freeNumber_eq_firstFree d 7 _).trans eq
    rw [List.length_map] at bound
    rw [← next] at free
    refine ⟨k, by omega, next, ?_, ?_, fun r hr same => ?_, fun j hj => ?_⟩
    · rw [next, iterate_cycleAfter first.1 first.2]; omega
    · rw [next, iterate_cycleAfter first.1 first.2]; omega
    · exact absurd ((held _).2 (List.mem_map.2 ⟨r, hr, same⟩)) (by simp [free])
    · obtain ⟨r, hr, same⟩ := List.mem_map.1 ((held _).1 (before j hj))
      exact ⟨r, hr, same⟩

/-! ## Recall and return (R169, R186, R188) -/

theorem storeHold_rlu (i : Fin 8) (key : HoldKey) (u : Bool) (d : Device) :
    (storeHold i key u d).rlu = d.rlu := by
  unfold storeHold
  split
  · rfl
  dsimp only
  split
  · rw [raise_rlu, putLot_rlu]
  · rfl

theorem enterHeld_rlu (i : Fin 8) (d : Device) : (enterHeld i d).rlu = d.rlu := by
  unfold enterHeld
  split
  · rfl
  split
  · exact (settlingLeavesTheRest _).rlu
  · rfl

theorem holdRequest_rlu (i : Fin 8) (key : HoldKey) (u : Bool) (d : Device) : (holdRequest i key u d).rlu = d.rlu :=
  (enterHeld_rlu i _).trans (storeHold_rlu i key u d)

theorem requestRemotes_rlu (p o t : Nat) (u : Bool) (d : Device) : (requestRemotes p o t u d).rlu = d.rlu := by
  refine List.foldlRecOn (motive := fun e : Device => e.rlu = d.rlu) slots _ rfl fun e he i _ => ?_
  split
  · exact (holdRequest_rlu ..).trans he
  · exact he

theorem lotCovered_iff (l : Lot) (program : Nat) :
    lotCovered l program = true ↔ ∃ p ∈ l.plan, p.program = program := by simp [lotCovered]

theorem returnRecord_eq (d : Device) (o t : Nat) (r : Release) : returnRecord d o t r =
    if r.state = .recalled ∧ r.cause = some (.entry o t) then
      match d.hdu.table.find? fun e => r.programs.contains e.program with
      | some e => { r with timer := none, cause := some (.entry e.origin e.tag) }
      | none =>
        if (cfg d).releaseDelay = 0 then { r with state := .ready, timer := none, cause := none }
        else { r with state := .delayed, timer := some ((cfg d).releaseDelay * 60000), cause := none }
    else r := by
  unfold returnRecord firstCover
  split
  · rename_i recalled
    cases d.hdu.table.find? fun e => r.programs.contains e.program with
    | none => rfl
    | some e => simp only [placeRecord, recalled.1]
  · rfl

theorem applyFloorHold_rlu (e : FloorHold) (d : Device) : (applyFloorHold e d).rlu =
    { d.rlu with records := d.rlu.records.map (recallBy e.origin e.tag e.program) } := by
  unfold applyFloorHold setRecords
  dsimp only
  rw [requestRemotes_rlu]

/-- Settles O48: `applyFloorHold` leaves the records to its last step, by `holdRequest_rlu`. -/
theorem recallAndReturn : Obligations.RecallAndReturn := by
  refine ⟨fun e d => ?_, fun o t d => ?_, fun e d =>
    ⟨requestRemotes e.program e.origin e.tag false d, ?_, rfl⟩⟩
  · rw [applyFloorHold_rlu]
    rfl
  · rw [returnRecords, funext (returnRecord_eq d o t)]
    rfl
  · refine congrArg (fun f => slots.foldl f d) (funext fun x => funext fun i => ?_)
    cases lotAt x i with
    | none => rfl
    | some l => simp only [Option.any_some, lotCovered_iff]

/-! ## The CRC (R209) -/

/-- Taking in its own top bit, the register shifts. -/
theorem crcBit_msb (r : BitVec 16) (b : Bool) (h : b = r.msb) : crcBit r b = r <<< 1 := by simp [crcBit, h]

theorem crcBit_shifted (r : BitVec 16) (k : Nat) (h : k < 16) :
    crcBit (r <<< k) (r.getLsbD (15 - k)) = r <<< (k + 1) := by
  rw [crcBit_msb, BitVec.shiftLeft_add]
  rw [BitVec.msb_shiftLeft, BitVec.getMsbD]
  simp [h]

theorem foldl_crcBit_own (r : BitVec 16) (n : Nat) (h : n ≤ 16) :
    ((List.range n).map fun k => r.getLsbD (15 - k)).foldl crcBit r = r <<< n := by
  induction n with
  | zero => rw [BitVec.shiftLeft_zero]; rfl
  | succ n ih =>
    rw [List.range_succ, List.map_append, List.foldl_append, ih (by omega)]
    exact crcBit_shifted r n (by omega)

theorem byteBits_crcBytes (r : BitVec 16) :
    byteBits (r.extractLsb' 8 8) ++ byteBits (r.extractLsb' 0 8) =
      (List.range 16).map fun k => r.getLsbD (15 - k) := by
  simp [byteBits, List.range_succ]

/-- Taking in its own two bytes, high byte first, the register shifts out. -/
theorem foldl_crcByte_own (r : BitVec 16) : (crcBytes r).foldl crcByte r = 0#16 := by
  calc (crcBytes r).foldl crcByte r
      = (byteBits (r.extractLsb' 8 8) ++ byteBits (r.extractLsb' 0 8)).foldl crcBit r := (List.foldl_append ..).symm
    _ = r <<< 16 := by rw [byteBits_crcBytes, foldl_crcBit_own r 16 le_rfl]
    _ = 0#16 := BitVec.shiftLeft_eq_zero le_rfl

/-- Settles O49: the register takes in its own two bytes last. -/
theorem closedFramesPassTheirCheck : Obligations.ClosedFramesPassTheirCheck := by
  intro body
  have ends : crc (closeFrame body) = 0#16 := by
    rw [closeFrame, crc, List.foldl_append]
    exact foldl_crcByte_own (crc body)
  rw [framePasses, ends]
  rfl

end Sys2Proof.Machine
end

section
/-! CONFIGURE's checks in order (O9), and a bulletin received as it was sent (O50). -/

namespace Sys2Proof.Machine

/-! ## The fields of CONFIGURE (R198) -/

theorem firstFailing_eq_none {n : Nat} {vs : List (Option Nat)} (h : firstFailing n vs = none) :
    ∀ v ∈ vs, v.isSome = true := by
  induction vs generalizing n with
  | nil => simp
  | cons v vs ih =>
    cases v with
    | none => cases h
    | some x => simpa using ih h

/-- The field named fails, and those before it pass. -/
theorem firstFailing_eq_some {n m : Nat} {vs : List (Option Nat)} (h : firstFailing n vs = some m) :
    n ≤ m ∧ vs[m - n]? = some none ∧ ∀ j, j + n < m → ∃ v, vs[j]? = some (some v) := by
  induction vs generalizing n with
  | nil => cases h
  | cons v vs ih =>
    cases v with
    | none =>
      obtain rfl := Option.some.inj h
      exact ⟨le_rfl, by simp, fun j hj => by omega⟩
    | some x =>
      obtain ⟨bound, fails, passes⟩ := ih h
      refine ⟨by omega, ?_, fun j hj => ?_⟩
      · rwa [show m - n = (m - (n + 1)) + 1 by omega, List.getElem?_cons_succ]
      · cases j with
        | zero => exact ⟨x, rfl⟩
        | succ j => exact passes j (by omega)

theorem checkConfig_of_failing {fields : List CfgField} {m : Nat} (h : firstFailing 1 (fieldValues fields) = some m) :
    checkConfig fields = .inl m := by simp only [checkConfig, h]

theorem checkConfig_of_passing {fields : List CfgField} (h : firstFailing 1 (fieldValues fields) = none) :
    checkConfig fields = if (blockOf (fieldValues fields)).bins.toList.any (fun b => b.cls == .pass)
      then .inr (blockOf (fieldValues fields)) else .inl 1 := by simp only [checkConfig, h]

/-- Settles O9: `firstFailing` goes through the fields in order. -/
theorem configureNamesTheFirstFailingField : Obligations.ConfigureNamesTheFirstFailingField := by
  intro fields length
  have all : (fieldValues fields).length = 54 := by rw [fieldValues, List.length_zipWith, length]; rfl
  cases first : firstFailing 1 (fieldValues fields) with
  | some m =>
    obtain ⟨low, fails, passes⟩ := firstFailing_eq_some first
    have high : m - 1 < 54 := all ▸ (List.getElem?_eq_some_iff.1 fails).1
    rw [checkConfig_of_failing first]
    refine ⟨fun n hn => .inl ?_, fun c hc => by cases hc⟩
    obtain rfl := Sum.inl.inj hn
    exact ⟨low, by omega, fails, passes⟩
  | none =>
    have some := firstFailing_eq_none first
    rw [checkConfig_of_passing first]
    split
    · rename_i pass
      obtain ⟨b, hb, cls⟩ := List.any_eq_true.1 pass
      refine ⟨fun n hn => (nomatch hn), fun c hc => ?_⟩
      obtain rfl := Sum.inr.inj hc
      exact ⟨some, rfl, b, hb, by simpa using cls⟩
    · rename_i noPass
      refine ⟨fun n hn => .inr ⟨(Sum.inl.inj hn).symm, some, fun b hb pass => ?_⟩, fun c hc => (nomatch hc)⟩
      exact noPass (List.any_eq_true.2 ⟨b, hb, by simp [pass]⟩)

/-! ## Bytes read back (R209) -/

theorem numAt_succ (b : Byte) (bs : List Byte) (i n : Nat) : numAt (b :: bs) (i + 1) n = numAt bs i n := rfl

theorem numAt_byte (v : Nat) (bs : List Byte) (h : v < 256) : numAt (BitVec.ofNat 8 v :: bs) 0 1 = v := by
  simpa [numAt, num] using h

theorem numAt_two (v w : Nat) (bs : List Byte) (hv : v < 256) (hw : w < 256) :
    numAt (BitVec.ofNat 8 v :: BitVec.ofNat 8 w :: bs) 0 2 = v * 256 + w := by
  simp only [numAt, num, List.drop_zero, List.take_succ_cons, List.take_zero, List.foldl_cons, List.foldl_nil,
    BitVec.toNat_ofNat]
  omega

theorem numAt_be_two (v : Nat) (bs : List Byte) (h : v < 65536) : numAt (be 2 v ++ bs) 0 2 = v := by
  have split : be 2 v ++ bs = BitVec.ofNat 8 (v / 256) :: BitVec.ofNat 8 (v % 256) :: bs := by
    have low : BitVec.ofNat 8 v = BitVec.ofNat 8 (v % 256) := BitVec.eq_of_toNat_eq (by simp)
    simp [be, low]
  rw [split, numAt_two _ _ _ (by omega) (by omega)]
  omega

theorem bodyOf_closeFrame (body : List Byte) : bodyOf (closeFrame body) = body := by
  simp [bodyOf, closeFrame, crcBytes]

/-- A bulletin frame is taken apart as it was put together. -/
theorem floorReceived_closeFrame {kind own : Nat} {p : List Byte} (hk : kind < 16) (ho : own < 32)
    (hp : p.length ≤ 48) : floorReceived (closeFrame (be 2 (bulletinHeader kind own p.length) ++ p)) =
      (bulletinCommand kind own p).getD .floorFrameDropped := by
  have header : numAt (closeFrame (be 2 (bulletinHeader kind own p.length) ++ p)) 0 2 =
      bulletinHeader kind own p.length := by
    rw [closeFrame, List.append_assoc]
    exact numAt_be_two _ _ (by unfold bulletinHeader; omega)
  have length : (closeFrame (be 2 (bulletinHeader kind own p.length) ++ p)).length = p.length + 4 := by
    simp [closeFrame, crcBytes, be]
  have declared : bulletinHeader kind own p.length % 128 = p.length := by unfold bulletinHeader; omega
  have passes : bulletinPasses (closeFrame (be 2 (bulletinHeader kind own p.length) ++ p)) = true := by
    simp [bulletinPasses, closedFramesPassTheirCheck _, header, length, declared, hp]
  have kindRead : bulletinHeader kind own p.length / 4096 = kind := by unfold bulletinHeader; omega
  have originRead : bulletinHeader kind own p.length / 128 % 32 = own := by unfold bulletinHeader; omega
  rw [floorReceived, if_pos passes, header, kindRead, originRead, bodyOf_closeFrame]
  rfl

theorem floorReceived_bulletinFrame {own : Nat} (m : FloorOut) (ho : own < 32)
    (hp : (bulletinPayload m).length ≤ 48) : floorReceived (bulletinFrame own m) =
      (bulletinCommand (kindCode m.bulletin) own (bulletinPayload m)).getD .floorFrameDropped :=
  floorReceived_closeFrame (by cases m.bulletin <;> simp [kindCode]) ho hp

/-! ## Payloads read back (12.4) -/

theorem HoldField.wf_iff (h : HoldField) : h.wf = true ↔ h.program < 4096 ∧ h.tag < 256 ∧ h.reason < 16 := by
  simp [HoldField.wf, fits1, and_assoc]

theorem holdPayload_eq (p t r : Nat) : holdPayload p t r =
    [BitVec.ofNat 8 (p / 16), BitVec.ofNat 8 (p % 16 * 16 + r), BitVec.ofNat 8 t] := by
  simp [holdPayload]

theorem holdFieldOf_holdPayload {h : HoldField} (wf : h.wf = true) (bs : List Byte) :
    holdFieldOf (holdPayload h.program h.tag h.reason ++ bs) = h := by
  obtain ⟨program, tag, reason⟩ := h
  obtain ⟨hp, ht, hr⟩ : program < 4096 ∧ tag < 256 ∧ reason < 16 := (HoldField.wf_iff _).1 wf
  simp only [holdPayload_eq, holdFieldOf, List.cons_append, List.nil_append, numAt_succ]
  rw [numAt_byte _ _ (by omega), numAt_byte _ _ (by omega), numAt_byte _ _ ht, HoldField.mk.injEq]
  omega

theorem holdFields_flatMap (hs : List HoldField) (wf : ∀ h ∈ hs, h.wf = true) (bs : List Byte) :
    holdFields hs.length (hs.flatMap (fun h => holdPayload h.program h.tag h.reason) ++ bs) = hs := by
  induction hs with
  | nil => rfl
  | cons h hs ih =>
    rw [List.flatMap_cons, List.append_assoc, List.length_cons, holdFields, holdFieldOf_holdPayload (wf h (by simp))]
    exact congrArg (h :: ·) (ih fun x hx => wf x (by simp [hx]))

theorem handlerFields_flatMap (hs : List HandlerField) (wf : ∀ h ∈ hs, h.wf = true) (bs : List Byte) :
    handlerFields hs.length (hs.flatMap (fun h => byte1 h.handler ++ byte1 h.kit ++ byte1 h.grade) ++ bs) = hs := by
  induction hs with
  | nil => rfl
  | cons h hs ih =>
    obtain ⟨⟨handler, kit⟩, grade⟩ : (h.handler < 256 ∧ h.kit < 256) ∧ h.grade < 256 := by
      simpa [HandlerField.wf, fits1] using wf h (by simp)
    simp only [List.flatMap_cons, List.length_cons, handlerFields, byte1_eq, List.cons_append, List.nil_append,
      numAt_succ, List.drop_succ_cons, List.drop_zero]
    rw [numAt_byte _ _ handler, numAt_byte _ _ kit, numAt_byte _ _ grade]
    exact congrArg (h :: ·) (by simpa using ih fun x hx => wf x (by simp [hx]))

theorem length_flatMap_three {α : Type} (f : α → List Byte) (h : ∀ a, (f a).length = 3) (l : List α) :
    (l.flatMap f).length = 3 * l.length := by
  simp [List.length_flatMap, h, Nat.mul_comm]

/-- The parts of a STATUS payload, one behind the other. -/
theorem statusPayload_eq (c : StatusField) : statusPayload c =
    BitVec.ofNat 8 c.cellState :: BitVec.ofNat 8 c.queued :: BitVec.ofNat 8 c.handler :: BitVec.ofNat 8 c.kit ::
    BitVec.ofNat 8 c.grade :: BitVec.ofNat 8 c.parked.length ::
    (c.parked.flatMap (fun h => byte1 h.handler ++ byte1 h.kit ++ byte1 h.grade) ++
      BitVec.ofNat 8 c.holds.length :: c.holds.flatMap fun h => holdPayload h.program h.tag h.reason) := by
  simp [statusPayload]

theorem length_parkedBytes (hs : List HandlerField) :
    (hs.flatMap fun h => byte1 h.handler ++ byte1 h.kit ++ byte1 h.grade).length = 3 * hs.length :=
  length_flatMap_three _ (fun h => by simp) hs

theorem length_holdBytes (hs : List HoldField) :
    (hs.flatMap fun h => holdPayload h.program h.tag h.reason).length = 3 * hs.length :=
  length_flatMap_three _ (fun h => by simp [holdPayload_eq]) hs

theorem length_statusPayload (c : StatusField) :
    (statusPayload c).length = 7 + 3 * c.parked.length + 3 * c.holds.length := by
  simp only [statusPayload_eq, List.length_cons, List.length_append, length_parkedBytes, length_holdBytes]
  omega

theorem statusOf_statusPayload {c : StatusField} (wf : c.wf = true) : statusOf (statusPayload c) = some c := by
  obtain ⟨⟨⟨⟨⟨⟨⟨cell, queued⟩, handler⟩, kit⟩, grade⟩, parked⟩, holds⟩, length⟩ :
      (((((((c.cellState < 256 ∧ c.queued < 256) ∧ c.handler < 256) ∧ c.kit < 256) ∧ c.grade < 256) ∧
        ∀ h ∈ c.parked, h.wf = true) ∧ ∀ h ∈ c.holds, h.wf = true) ∧
        7 + 3 * c.parked.length + 3 * c.holds.length ≤ 48) := by
    simpa [StatusField.wf, fits1] using wf
  have parkedLength := length_parkedBytes c.parked
  have holdsLength := length_holdBytes c.holds
  have parkedRead := handlerFields_flatMap c.parked parked
    (BitVec.ofNat 8 c.holds.length :: c.holds.flatMap fun h => holdPayload h.program h.tag h.reason)
  have holdsRead := holdFields_flatMap c.holds holds []
  rw [List.append_nil] at holdsRead
  rw [statusPayload_eq]
  generalize c.parked.flatMap (fun h => byte1 h.handler ++ byte1 h.kit ++ byte1 h.grade) = ps at *
  generalize c.holds.flatMap (fun h => holdPayload h.program h.tag h.reason) = hs at *
  have count : numAt (ps ++ BitVec.ofNat 8 c.holds.length :: hs) (3 * c.parked.length) 1 = c.holds.length := by
    rw [numAt, List.drop_left' parkedLength]
    exact numAt_byte _ _ (by omega)
  have behind : (ps ++ BitVec.ofNat 8 c.holds.length :: hs).drop (3 * c.parked.length + 1) = hs := by
    rw [← List.drop_drop, List.drop_left' parkedLength]
    rfl
  unfold statusOf
  simp only [numAt_succ, show 6 + 3 * c.parked.length = 3 * c.parked.length + 6 by omega,
    show 7 + 3 * c.parked.length = 3 * c.parked.length + 1 + 6 by omega, List.drop_succ_cons, List.drop_zero,
    numAt_byte _ _ cell, numAt_byte _ _ queued, numAt_byte _ _ handler, numAt_byte _ _ kit, numAt_byte _ _ grade,
    numAt_byte c.parked.length _ (by omega), count, behind, parkedRead, holdsRead, List.length_cons,
    List.length_append, parkedLength, holdsLength]
  rw [if_pos (by omega)]

theorem gradeCode_lt (g : Option Grade) : gradeCode g < 256 := by
  rcases g with _ | _ | _ | _ <;> simp [gradeCode]

/-- A HOLD's or a LIFT's payload, as it stands and as it is read. -/
theorem holdPayload_read {p t r : Nat} (wf : HoldField.wf ⟨p, t, r⟩ = true) :
    (holdPayload p t r).length = 3 ∧ holdFieldOf (holdPayload p t r) = ⟨p, t, r⟩ := by
  refine ⟨by simp [holdPayload_eq], ?_⟩
  simpa using holdFieldOf_holdPayload wf []

/-- Settles O50: the header is read back, then each field of the payload. -/
theorem bulletinsAreReceivedAsSent : Obligations.BulletinsAreReceivedAsSent := by
  intro own ho
  refine ⟨fun p t r wf => ?_, fun p t wf => ?_, fun h k p hh hk hp => ?_, fun h k g hh hk => ?_,
    fun k p hk hp => ?_, fun c wf => ?_⟩
  · obtain ⟨length, read⟩ := holdPayload_read wf
    rw [floorReceived_bulletinFrame _ ho (by simp [bulletinPayload, length])]
    simp [bulletinPayload, kindCode, bulletinCommand, length, read]
  · obtain ⟨length, read⟩ := holdPayload_read wf
    rw [floorReceived_bulletinFrame _ ho (by simp [bulletinPayload, length])]
    simp [bulletinPayload, kindCode, bulletinCommand, length, read]
  · rw [floorReceived_bulletinFrame _ ho (by simp [bulletinPayload])]
    simp [bulletinPayload, kindCode, bulletinCommand, numAt_succ, numAt_byte, hh, hk, hp]
  · have hg := gradeCode_lt g
    constructor
    · rw [floorReceived_bulletinFrame _ ho (by simp [bulletinPayload])]
      simp [bulletinPayload, kindCode, bulletinCommand, numAt_succ, numAt_byte, hh, hk, hg]
    · rw [floorReceived_bulletinFrame _ ho (by simp [bulletinPayload])]
      simp [bulletinPayload, kindCode, bulletinCommand, numAt_succ, numAt_byte, hh, hk, hg]
  · rw [floorReceived_bulletinFrame _ ho (by simp [bulletinPayload])]
    simp [bulletinPayload, kindCode, bulletinCommand, numAt_succ, numAt_byte, hk, hp]
  · have short : (statusPayload c).length ≤ 48 := by
      have bound : 7 + 3 * c.parked.length + 3 * c.holds.length ≤ 48 := by
        simp only [StatusField.wf, Bool.and_eq_true, decide_eq_true_eq] at wf
        exact wf.2
      rw [length_statusPayload]
      exact bound
    rw [floorReceived_bulletinFrame ⟨.status, some c⟩ ho short]
    simp [bulletinPayload, kindCode, bulletinCommand, statusOf_statusPayload wf]

end Sys2Proof.Machine
end

section
/-! A window close with its checks, and the close of an insertion to its end (O41). -/

namespace Sys2Proof.Machine

/-! ## The checks of a window close (R89 to R91) -/

theorem mem_highBins (c : ConfigBlock) (a : Accum) (b : Fin 16) : b ∈ highBins c a ↔
    ∃ s, binSetting c b = some s ∧ s.cls ≠ .pass ∧ c.nMin ≤ testedCount a ∧
      s.sbl < bp c.rounding a.first[b] (testedCount a) := by
  rw [highBins, List.mem_filter, binHigh]
  cases h : binSetting c b with
  | none => simp
  | some s => simp [mem_binList, and_assoc, and_left_comm]

theorem highBins_pairwise (c : ConfigBlock) (a : Accum) : (highBins c a).Pairwise (· < ·) :=
  List.Pairwise.filter _ (show binList.Pairwise (· < ·) by decide)

/-- The lowest yield, and of equal yields the lower site. -/
theorem lowestSite_some {ys : List (Fin 8 × Nat)} {x : Fin 8 × Nat} (ascending : ys.Pairwise (·.1 < ·.1))
    (h : lowestSite ys = some x) : x ∈ ys ∧ ∀ y ∈ ys, x.2 < y.2 ∨ (x.2 = y.2 ∧ x.1 ≤ y.1) := by
  induction ys generalizing x with
  | nil => cases h
  | cons z zs ih =>
    obtain ⟨behind, ascending⟩ := List.pairwise_cons.1 ascending
    cases low : lowestSite zs with
    | none =>
      have : zs = [] := by
        cases zs with
        | nil => rfl
        | cons w ws => rw [lowestSite] at low; split at low <;> [cases low; (split at low <;> cases low)]
      subst this
      obtain rfl : z = x := by simpa [lowestSite] using h
      simp
    | some y =>
      obtain ⟨mem, least⟩ := ih ascending low
      rw [lowestSite, low] at h
      dsimp only at h
      split at h
      · rename_i lower
        obtain rfl := Option.some.inj h
        refine ⟨List.mem_cons_of_mem _ mem, fun v hv => ?_⟩
        rcases List.mem_cons.1 hv with rfl | hv
        · exact .inl lower
        · exact least v hv
      · rename_i notLower
        obtain rfl := Option.some.inj h
        refine ⟨List.mem_cons_self .., fun v hv => ?_⟩
        rcases List.mem_cons.1 hv with rfl | hv
        · exact .inr ⟨rfl, le_rfl⟩
        · have := behind v hv
          rcases least v hv with less | ⟨same, -⟩
          · exact .inl (by omega)
          · rcases Nat.lt_or_ge z.2 v.2 with less | more
            · exact .inl less
            · exact .inr ⟨by omega, le_of_lt this⟩

theorem lowestSite_cons (z : Fin 8 × Nat) (zs : List (Fin 8 × Nat)) : ∃ x, lowestSite (z :: zs) = some x := by
  rw [lowestSite]
  cases lowestSite zs with
  | none => exact ⟨_, rfl⟩
  | some y => dsimp only; split <;> exact ⟨_, rfl⟩

theorem lt_highestYield_iff (ys : List (Fin 8 × Nat)) (n : Nat) : n < highestYield ys ↔ ∃ y ∈ ys, n < y.2 := by
  have fold : ∀ m, n < ys.foldl (fun m y => max m y.2) m ↔ n < m ∨ ∃ y ∈ ys, n < y.2 := by
    induction ys with
    | nil => simp
    | cons y ys ih => intro m; simp [ih, or_assoc]
  simpa [highestYield] using fold 0

/-- R91: site `k` is enabled and tested often enough. -/
def Qualifies (d : Device) (t : Stats) (k : Fin 8) : Prop :=
  d.tpt.mask[k] = .enabled ∧ (cfg d).nMin ≤ t.siteTested[k]

def siteYield (d : Device) (t : Stats) (k : Fin 8) : Nat := bp (cfg d).rounding t.sitePass[k] t.siteTested[k]

theorem mem_siteYields (d : Device) (t : Stats) (y : Fin 8 × Nat) :
    y ∈ siteYields d t ↔ Qualifies d t y.1 ∧ y.2 = siteYield d t y.1 := by
  have all : ∀ k, k ∈ siteList := by decide
  obtain ⟨k, v⟩ := y
  simp only [siteYields, Qualifies, siteYield, List.mem_map, List.mem_filter, all, true_and, Bool.and_eq_true,
    beq_iff_eq, decide_eq_true_eq, Prod.mk.injEq]
  exact ⟨fun ⟨_, q, rfl, h⟩ => ⟨q, h.symm⟩, fun ⟨q, h⟩ => ⟨k, q, rfl, h.symm⟩⟩

theorem siteYields_ascending (d : Device) (t : Stats) : (siteYields d t).Pairwise (·.1 < ·.1) :=
  (List.Pairwise.filter _ (show siteList.Pairwise (· < ·) by decide)).map _ fun _ _ => id

theorem two_le_length_of_ne {α : Type} {l : List α} {x y : α} (hx : x ∈ l) (hy : y ∈ l) (ne : x ≠ y) :
    2 ≤ l.length := by
  match l with
  | [] => cases hx
  | [a] => exact absurd ((List.mem_singleton.1 hx).trans (List.mem_singleton.1 hy).symm) ne
  | _ :: _ :: _ => simp

/-- R91: the site of lowest yield, the lowest of equals, where some site is above it by more than the limit. -/
theorem deltaSite_eq_some_iff (d : Device) (t : Stats) (k : Fin 8) : deltaSite d t = some k ↔
    Qualifies d t k ∧ (∀ j, Qualifies d t j →
      siteYield d t k < siteYield d t j ∨ (siteYield d t k = siteYield d t j ∧ k ≤ j)) ∧
    ∃ j, Qualifies d t j ∧ (cfg d).siteDeltaLimit < siteYield d t j - siteYield d t k := by
  have ofQualifies {j} (q : Qualifies d t j) : (j, siteYield d t j) ∈ siteYields d t := (mem_siteYields ..).2 ⟨q, rfl⟩
  unfold deltaSite
  dsimp only
  cases low : lowestSite (siteYields d t) with
  | none =>
    refine ⟨fun h => (nomatch h), fun ⟨q, _⟩ => ?_⟩
    cases ys : siteYields d t with
    | nil => exact absurd (ofQualifies q) (by simp [ys])
    | cons z zs =>
      obtain ⟨x, hx⟩ := lowestSite_cons z zs
      rw [ys, hx] at low
      cases low
  | some x =>
    obtain ⟨mem, least⟩ := lowestSite_some (siteYields_ascending d t) low
    obtain ⟨q, value⟩ := (mem_siteYields ..).1 mem
    have above : (cfg d).siteDeltaLimit < highestYield (siteYields d t) - x.2 ↔
        ∃ j, Qualifies d t j ∧ (cfg d).siteDeltaLimit < siteYield d t j - siteYield d t x.1 := by
      rw [Nat.lt_sub_iff_add_lt, lt_highestYield_iff, ← value]
      constructor
      · rintro ⟨y, hy, more⟩
        obtain ⟨qy, vy⟩ := (mem_siteYields ..).1 hy
        exact ⟨y.1, qy, by omega⟩
      · rintro ⟨j, qj, more⟩
        exact ⟨_, ofQualifies qj, by dsimp only; omega⟩
    have two : (∃ j, Qualifies d t j ∧ (cfg d).siteDeltaLimit < siteYield d t j - siteYield d t x.1) →
        2 ≤ (siteYields d t).length := by
      rintro ⟨j, qj, more⟩
      have other : (j, siteYield d t j) ≠ x := fun e => by rw [← e] at more; simp at more
      exact two_le_length_of_ne (ofQualifies qj) mem other
    have chosen : x.1 = k ↔ Qualifies d t k ∧ ∀ j, Qualifies d t j →
        siteYield d t k < siteYield d t j ∨ (siteYield d t k = siteYield d t j ∧ k ≤ j) := by
      constructor
      · rintro rfl
        exact ⟨q, fun j qj => by simpa only [value] using least _ (ofQualifies qj)⟩
      · rintro ⟨qk, leastK⟩
        rcases leastK x.1 q with less | ⟨same, le⟩ <;> rcases least _ (ofQualifies qk) with less' | ⟨same', le'⟩
        · dsimp only at less'; omega
        · dsimp only at same'; omega
        · dsimp only at less'; omega
        · exact le_antisymm le' le
    dsimp only
    constructor
    · intro h
      split at h
      · rename_i both
        obtain rfl := Option.some.inj h
        obtain ⟨qk, leastK⟩ := chosen.1 rfl
        exact ⟨qk, leastK, above.1 both.2⟩
      · cases h
    · rintro ⟨qk, leastK, more⟩
      obtain rfl := chosen.2 ⟨qk, leastK⟩
      rw [if_pos ⟨two more, above.2 more⟩]

/-! ## The close (R16, R69, R95, R96) -/

theorem partialWindow_of_half {i : Fin 8} {l : Lot} {d : Device} (hl : lotAt d i = some l)
    (half : (cfg d).windowSize / 2 ≤ l.stats.winResults) : partialWindow i d = windowClose i d := by
  simp only [partialWindow, hl, half, if_true]

theorem partialWindow_of_less {i : Fin 8} {l : Lot} {d : Device} (hl : lotAt d i = some l)
    (less : l.stats.winResults < (cfg d).windowSize / 2) : partialWindow i d =
      putLot i (some { l with stats := { l.stats with winResults := 0, winPass := 0 } }) d := by
  simp only [partialWindow, hl, if_neg (Nat.not_le.2 less), modifyStats, modifyLot_some _ hl]

theorem windowYieldCheck_eq (i : Fin 8) (c : ConfigBlock) (t : Stats) (d : Device) :
    windowYieldCheck i (windowYieldLow c t) d =
      if bp c.rounding t.winPass t.winResults < c.windowYieldLimit then
        (if (cfg d).windowFloor then floorRequest i HoldKey.window 1 d else holdRequest i (.window none) false d)
      else d := by
  simp [windowYieldCheck, windowYieldLow]

theorem windowClose_eq {i : Fin 8} {l : Lot} {d : Device} (hl : lotAt d i = some l) : windowClose i d =
    let value : WindowValue :=
      ⟨l.stats.winResults, l.stats.winPass, bp (cfg d).rounding l.stats.winPass l.stats.winResults⟩
    let low := windowYieldLow (cfg d) l.stats
    let bins := highBins (cfg d) l.acc
    let w := bins.foldl (fun e b => binRequest i b e) (windowYieldCheck i low
      (putLot i (some { l with stats := { l.stats with holdValue := some value } }) d))
    modifyStats i (fun t => { t with
      winLow := low, binHigh := decide (bins ≠ []), deltaHigh := (deltaSite w l.stats).isSome, winResults := 0
      winPass := 0 }) (deltaCheck i (deltaSite w l.stats) w) := by
  have flag (bins : List (Fin 16)) : (!bins.isEmpty) = decide (bins ≠ []) := by cases bins <;> rfl
  unfold windowClose
  rw [hl]
  simp only [modifyStats, modifyLot_some _ hl, flag]

theorem closeInsertion_eq {i : Fin 8} {l : Lot} {d : Device} (hl : lotAt d i = some l) : closeInsertion i d =
    closeComplete i (setTpt (fun t => { t with lastClosed := some l.id })
      (finalChecks i (partialWindow i (putLot i (some (closeLot (cfg d) (now d) l)) d)))) := by
  unfold closeInsertion
  rw [hl]
  simp only [modifyLot_some _ hl]

theorem holdsLot_eq_false_iff (l : Lot) : holdsLot l = false ↔ l.holds = [] ∧ l.overflow = false := by
  simp [holdsLot]

theorem holdsLot_iff (l : Lot) : holdsLot l = true ↔ l.holds ≠ [] ∨ l.overflow = true := by
  simp [holdsLot]

theorem completeLot_of_on {l : Lot} {m : CloseSummary} (hm : l.summary = some m) (on : goesOn l = true) :
    completeLot l = { l with
      opened := false, closeOnContinue := false, completed := l.completed + 1, step := none, cur := l.cur + 1
      qIn := min 500000 m.good, passStarted := false } := by
  simp only [completeLot, on, if_true, reportedGood, hm, Option.elim_some]

theorem completeLot_of_off {l : Lot} (off : ¬ goesOn l = true) : completeLot l =
    { l with opened := false, closeOnContinue := false, completed := l.completed + 1, step := none } := by
  simp only [completeLot, off, if_false, Bool.false_eq_true]

theorem holdsLot_completeLot (l : Lot) : holdsLot (completeLot l) = holdsLot l := by
  unfold holdsLot completeLot
  dsimp only
  split <;> rfl

theorem closeComplete_of_clear {i : Fin 8} {l : Lot} {d : Device} (hl : lotAt d i = some l)
    (clear : holdsLot l = false) : closeComplete i d = settle
      (if goesOn l then enterQueued i (putLot i (some (completeLot l)) (stopSilence d))
       else enterReview i (putLot i (some (completeLot l)) (stopSilence d))) := by
  unfold closeComplete enterSuccessor
  rw [hl]
  dsimp only
  rw [show stopSilence (putLot i (some (completeLot l)) d) = putLot i (some (completeLot l)) (stopSilence d) from rfl,
    lotAt_putLot_same]
  dsimp only
  rw [holdsLot_completeLot, clear, successor]
  cases goesOn l <;> rfl

theorem closeComplete_of_held {i : Fin 8} {l : Lot} {d : Device} (hl : lotAt d i = some l)
    (held : holdsLot l = true) : closeComplete i d = settle (putLot i (some { completeLot l with
      state := .held, resume := some (successor l)
      unseen := (completeLot l).unseen || (completeLot l).state != .held }) (stopSilence d)) := by
  unfold closeComplete enterSuccessor
  rw [hl]
  dsimp only
  rw [show stopSilence (putLot i (some (completeLot l)) d) = putLot i (some (completeLot l)) (stopSilence d) from rfl,
    lotAt_putLot_same]
  dsimp only
  rw [holdsLot_completeLot, if_pos held, putLot_putLot]

theorem goesOn_iff {l : Lot} {m : CloseSummary} (h : l.summary = some m) :
    goesOn l = true ↔ 0 < m.good ∧ l.cur < l.plan.length := by
  simp [goesOn, reportedGood, h]

theorem enterQueued_eq {i : Fin 8} {l : Lot} {d : Device} (hl : lotAt d i = some l) : enterQueued i d =
    settle (if l.cls = 0 then preempt (putLot i (some { l with state := .queued, resume := none }) d)
      else putLot i (some { l with state := .queued, resume := none }) d) := by
  simp only [enterQueued, modifyLot_some _ hl, lotAt_putLot_same, Option.any_some, beq_iff_eq]

theorem enterReview_eq {i : Fin 8} {l : Lot} {d : Device} (hl : lotAt d i = some l) : enterReview i d =
    offerReview i (putLot i (some { l with state := .review, resume := none }) d) := by
  simp only [enterReview, modifyLot_some _ hl]

/-- Settles O41: each operation's equation for the lot in the slot. -/
theorem windowAndInsertionClose : Obligations.WindowAndInsertionClose := by
  refine ⟨fun i l d hl => ?_, fun i l d hl => ?_, fun i l m d hl hm => ⟨⟨_, rfl, ?_⟩, ?_⟩, fun i l d hl => ?_⟩
  · refine ⟨_, _, highBins (cfg d) l.acc, _, _, _, _, _, rfl, rfl, rfl, rfl, highBins_pairwise .., fun b => ?_, rfl,
      ⟨_, _, fun k => Iff.rfl, fun k => rfl, fun k => deltaSite_eq_some_iff _ _ k⟩, rfl, ?_,
      partialWindow_of_half hl, partialWindow_of_less hl⟩
    · exact mem_highBins ..
    · rw [windowClose_eq hl]
      dsimp only
      rw [windowYieldCheck_eq]
      rfl
  · exact ⟨_, _, rfl, rfl, rfl, rfl, rfl, rfl, closeInsertion_eq hl⟩
  · simp only [finalChecks, hl, Option.bind_some, hm]
  · refine ⟨goesOn l = true, _, _, goesOn_iff hm, rfl, rfl, fun on => ⟨_, rfl, fun h o => ?_, fun h => ?_⟩,
      fun off => ⟨fun h o => ?_, fun h => ?_⟩⟩
    · rw [closeComplete_of_clear hl ((holdsLot_eq_false_iff l).2 ⟨h, o⟩), if_pos on, completeLot_of_on hm on]
      rfl
    · rw [closeComplete_of_held hl ((holdsLot_iff l).2 h), completeLot_of_on hm on, successor, if_pos on]
      rfl
    · rw [closeComplete_of_clear hl ((holdsLot_eq_false_iff l).2 ⟨h, o⟩), if_neg off, completeLot_of_off off]
      rfl
    · rw [closeComplete_of_held hl ((holdsLot_iff l).2 h), completeLot_of_off off, successor, if_neg off]
      rfl
  · exact ⟨_, rfl, enterQueued_eq hl, enterReview_eq hl⟩

end Sys2Proof.Machine
end

section
/-! What the transmit queue does with an offer, and how a need begins, moves and ends (O38). -/

namespace Sys2Proof.Machine

/-! ## The transmit queue (R129 to R131) -/

/-- The floor line after `b` entered the queue from which the bulletins that satisfy `p` were taken. -/
def queuedInstead (b : Bulletin) (p : Bulletin → Bool) (f : Fli) : Fli :=
  { f with
    queue := insertEntry ⟨b, f.nextAge⟩ (f.queue.filter fun e => !p e.bulletin)
    nextAge := f.nextAge + 1 }

theorem enqueue_removeQueued_fli (b : Bulletin) (p : Bulletin → Bool) (d : Device) :
    (enqueue b (removeQueued p d)).fli = queuedInstead b p d.fli := by
  simp only [enqueue, removeQueued_fli, queuedInstead]

theorem enqueue_removeQueued_of_unmarked (b : Bulletin) {p : Bulletin → Bool}
    (h : ∀ q, p q = true → unmarked q = true) (d : Device) :
    enqueue b (removeQueued p d) = { d with fli := queuedInstead b p d.fli } := by
  rw [removeQueued_of_unmarked h]
  rfl

theorem enqueue_eq (b : Bulletin) (d : Device) :
    enqueue b d = { d with fli := queuedInstead b (fun _ => false) d.fli } := by
  simp only [enqueue, queuedInstead, Bool.not_false, List.filter_true]

theorem isStatus_iff (b : Bulletin) : isStatus b = true ↔ b = .status := by
  cases b <;> simp [isStatus, kindCode]

theorem isSeek_iff (b : Bulletin) : isSeek b = true ↔ ∃ k p, b = .seek k p := by
  cases b <;> simp [isSeek, kindCode]

theorem isStatus_eq_false_iff (b : Bulletin) : isStatus b = false ↔ b ≠ .status := by
  rw [← Bool.not_eq_true, isStatus_iff]

theorem isSeek_eq_false_iff (b : Bulletin) : isSeek b = false ↔ ∀ k p, b ≠ .seek k p := by
  rw [← Bool.not_eq_true, isSeek_iff, not_exists]
  exact forall_congr' fun k => not_exists

theorem claimLost_ctp (d : Device) : (claimLost d).ctp = d.ctp := by
  unfold claimLost
  split <;> rfl

theorem queueAccepts_iff (l : LineState) : queueAccepts l = true ↔ l = .listen ∨ l = .active ∨ l = .quiet := by
  cases l <;> simp [queueAccepts]

/-- The queue and the slot have no place left (R129). -/
def QueueFull (f : Fli) : Prop := 12 ≤ f.queue.length + (if f.slot.isSome then 1 else 0)

theorem not_queueFull_iff (f : Fli) : ¬ QueueFull f ↔ placesTaken f < 12 := Nat.not_le

section Offer

variable {b : Bulletin} {d : Device} (accepts : queueAccepts d.fli.line = true)

include accepts

theorem offer_of_replaces (h : ∃ e ∈ d.fli.queue, replaces b e.bulletin = true) :
    offer b d = enqueue b (removeQueued (replaces b) d) := by
  rw [offer, accepts, if_neg (by simp), if_pos (List.any_eq_true.2 h)]

variable (new : ∀ e ∈ d.fli.queue, replaces b e.bulletin = false)

include new

theorem offer_of_place (place : ¬ QueueFull d.fli) : offer b d = enqueue b d := by
  rw [offer, accepts, if_neg (by simp), if_neg (by simpa using new), if_pos ((not_queueFull_iff _).1 place)]

variable (full : QueueFull d.fli)

include full

theorem offer_of_status (h : ∃ e ∈ d.fli.queue, isStatus e.bulletin = true) :
    offer b d = enqueue b (removeQueued isStatus d) := by
  rw [offer, accepts, if_neg (by simp), if_neg (by simpa using new),
    if_neg ((not_queueFull_iff _).not.1 (not_not.2 full)), if_pos (List.any_eq_true.2 h)]

variable (noStatus : ∀ e ∈ d.fli.queue, isStatus e.bulletin = false)

include noStatus

theorem offer_of_seek (h : ∃ e ∈ d.fli.queue, isSeek e.bulletin = true) :
    offer b d = enqueue b (removeQueued isSeek d) := by
  rw [offer, accepts, if_neg (by simp), if_neg (by simpa using new),
    if_neg ((not_queueFull_iff _).not.1 (not_not.2 full)), if_neg (by simpa using noStatus),
    if_pos (List.any_eq_true.2 h)]

theorem offer_of_refused (noSeek : ∀ e ∈ d.fli.queue, isSeek e.bulletin = false) : offer b d = refuseOffer b d := by
  rw [offer, accepts, if_neg (by simp), if_neg (by simpa using new),
    if_neg ((not_queueFull_iff _).not.1 (not_not.2 full)), if_neg (by simpa using noStatus),
    if_neg (by simpa using noSeek)]

end Offer

/-- The entry goes behind all that the order puts before it. -/
theorem insertEntry_split (e : QEntry) (q : List QEntry) : ∃ before after, q = before ++ after ∧
    insertEntry e q = before ++ e :: after ∧ (∀ x ∈ before, goesBefore e x = false) ∧
    ∀ x ∈ after.head?, goesBefore e x = true := by
  induction q with
  | nil => exact ⟨[], [], rfl, rfl, by simp, by simp⟩
  | cons x xs ih =>
    rw [insertEntry]
    split
    · rename_i first
      exact ⟨[], x :: xs, rfl, rfl, by simp, by simpa using first⟩
    · rename_i notFirst
      obtain ⟨before, after, rfl, eq, low, high⟩ := ih
      refine ⟨x :: before, after, rfl, by rw [eq]; rfl, fun y hy => ?_, high⟩
      rcases List.mem_cons.1 hy with rfl | hy
      · simpa using notFirst
      · exact low y hy

/-! ## The need (R144, R145) -/

/-- R144: no handler of the kit is docked at grade A or B. -/
def LacksHandler (d : Device) (l : Lot) : Prop :=
  dockedHandler d = none ∨ d.hpt.kit ≠ l.kit ∨ d.tpm.grade = some .c

theorem needExists_of_staging {d : Device} {i : Fin 8} {l : Lot} (h : stagingLot d = some (i, l)) :
    needExists d = true ↔ LacksHandler d l := by
  simp [needExists, h, LacksHandler, or_assoc]

theorem needExists_iff (d : Device) :
    needExists d = true ↔ ∃ i l, stagingLot d = some (i, l) ∧ LacksHandler d l := by
  cases h : stagingLot d with
  | none => simp [needExists, h]
  | some e =>
    rw [needExists_of_staging (i := e.1) (l := e.2) h]
    exact ⟨fun k => ⟨e.1, e.2, rfl, k⟩, fun ⟨i, l, eq, k⟩ => by obtain rfl := Option.some.inj eq; exact k⟩

theorem endNeed_of_other {d : Device} (c : d.asu.need.state ≠ .claiming) (w : d.asu.need.state ≠ .won) :
    endNeed d = setNeed .idle d := by
  unfold endNeed
  dsimp only
  split <;> simp_all

theorem endNeed_of_unaimed {d : Device} (c : d.asu.need.state = .claiming) (t : d.asu.need.target = none) :
    endNeed d = setNeed .idle (removeClaim d) := by
  simp only [endNeed, c, t]

theorem removeClaim_station (d : Device) : ownStation (removeClaim d) = ownStation d := by
  simp only [ownStation, removeClaim, removeQueued_fli]

theorem entryUnclaimed_eq (e : HandlerEntry) : entryUnclaimed e =
    if e.parkedBy = none then ⟨.unknown, none, e.kit, e.grade, none, none, none⟩
    else { e with state := .free, station := none, strength := none, timer := none } := by
  cases h : e.parkedBy <;> simp [entryUnclaimed, entryUnknown, h]

theorem endNeed_of_claiming {d : Device} {h : Nat} (c : d.asu.need.state = .claiming)
    (t : d.asu.need.target = some h) : endNeed d = setNeed .idle
      (if (entryAt (removeClaim d) h).state = .claimed ∧
          (entryAt (removeClaim d) h).station = some (ownStation d) then
        setEntry h (if (entryAt (removeClaim d) h).parkedBy = none then
            ⟨.unknown, none, (entryAt (removeClaim d) h).kit, (entryAt (removeClaim d) h).grade, none, none, none⟩
          else { entryAt (removeClaim d) h with state := .free, station := none, strength := none, timer := none })
          (removeClaim d)
      else removeClaim d) := by
  rw [← entryUnclaimed_eq]
  simp only [endNeed, c, t, ownClaimed, removeClaim_station, Bool.and_eq_true, beq_iff_eq]

theorem endNeed_of_won {d : Device} {h : Nat} (w : d.asu.need.state = .won) (t : d.asu.need.target = some h) :
    endNeed d = setNeed .idle (parkEntry h (entryAt d h).kit (entryAt d h).grade d) := by
  simp only [endNeed, w, t, releaseWon]

/-! ## Candidates (R146) -/

/-- Handler `h` can be claimed for the need `n`. -/
def Fits (d : Device) (n : Need) (h : Nat) : Prop :=
  1 ≤ h ∧ h ≤ 48 ∧ (entryAt d h).state = .free ∧ (entryAt d h).kit = n.kit ∧
    ((entryAt d h).grade = some .a ∨ (entryAt d h).grade = some .b) ∧ n.passedOver ≠ some h

/-- The candidate R146 takes: grade A before B, then the lowest ID. -/
def Best (d : Device) (n : Need) (h : Nat) : Prop :=
  Fits d n h ∧ ∀ j, Fits d n j → ((entryAt d h).grade = (entryAt d j).grade ∧ h ≤ j) ∨
    ((entryAt d h).grade = some .a ∧ (entryAt d j).grade = some .b)

theorem mem_handlerIds (h : Nat) : h ∈ handlerIds ↔ 1 ≤ h ∧ h ≤ 48 := by
  simp only [handlerIds, List.mem_map, List.mem_range]
  exact ⟨fun ⟨n, hn, e⟩ => by omega, fun ⟨low, high⟩ => ⟨h - 1, by omega, by omega⟩⟩

theorem isCandidate_iff (d : Device) {g : Grade} (hg : g = .a ∨ g = .b) {h : Nat} (ids : h ∈ handlerIds) :
    isCandidate d g h = true ↔ Fits d d.asu.need h ∧ (entryAt d h).grade = some g := by
  simp only [isCandidate, Fits, Bool.and_eq_true, beq_iff_eq, bne_iff_ne, (mem_handlerIds h).1 ids, true_and]
  constructor
  · rintro ⟨⟨⟨free, kit⟩, grade⟩, notOver⟩
    exact ⟨⟨free, kit, hg.imp (fun e => by rw [grade, e]) fun e => by rw [grade, e], notOver⟩, grade⟩
  · rintro ⟨⟨free, kit, -, notOver⟩, grade⟩
    exact ⟨⟨⟨free, kit⟩, grade⟩, notOver⟩

/-- The first candidate of a grade is the lowest. -/
theorem find_isCandidate {d : Device} {g : Grade} (hg : g = .a ∨ g = .b) {h : Nat} (fits : Fits d d.asu.need h)
    (grade : (entryAt d h).grade = some g)
    (least : ∀ j, Fits d d.asu.need j → (entryAt d j).grade = some g → h ≤ j) :
    handlerIds.find? (isCandidate d g) = some h := by
  have ids : h ∈ handlerIds := (mem_handlerIds h).2 ⟨fits.1, fits.2.1⟩
  have ascending : handlerIds.Pairwise (· < ·) :=
    List.Pairwise.map _ (fun _ _ => Nat.succ_lt_succ) List.pairwise_lt_range
  obtain ⟨before, after, eq⟩ := List.append_of_mem ids
  refine List.find?_eq_some_iff_append.2 ⟨(isCandidate_iff d hg ids).2 ⟨fits, grade⟩, before, after, eq, fun j hj => ?_⟩
  have lower : j < h := by
    rw [eq, List.pairwise_append] at ascending
    exact ascending.2.2 j hj h (List.mem_cons_self ..)
  by_contra cand
  have idsJ : j ∈ handlerIds := eq ▸ List.mem_append_left _ hj
  obtain ⟨fitsJ, gradeJ⟩ := (isCandidate_iff d hg idsJ).1 (by simpa using cand)
  exact absurd (least j fitsJ gradeJ) (by omega)

theorem find_isCandidate_none {d : Device} {g : Grade} (hg : g = .a ∨ g = .b)
    (none : ∀ j, Fits d d.asu.need j → (entryAt d j).grade ≠ some g) :
    handlerIds.find? (isCandidate d g) = .none :=
  List.find?_eq_none.2 fun j hj cand =>
    have := (isCandidate_iff d hg hj).1 cand
    none j this.1 this.2

theorem candidate_of_best {d : Device} {h : Nat} (best : Best d d.asu.need h) : candidate d = some h := by
  obtain ⟨fits, first⟩ := best
  unfold candidate
  rcases fits.2.2.2.2.1 with a | b
  · rw [find_isCandidate (.inl rfl) fits a fun j fj aj => ?_]
    rcases first j fj with ⟨-, le⟩ | ⟨-, bj⟩
    · exact le
    · rw [aj] at bj; cases bj
  · rw [find_isCandidate_none (.inl rfl) fun j fj aj => ?_]
    · refine find_isCandidate (.inr rfl) fits b fun j fj bj => ?_
      rcases first j fj with ⟨-, le⟩ | ⟨a, -⟩
      · exact le
      · rw [b] at a; cases a
    · rcases first j fj with ⟨same, -⟩ | ⟨a, -⟩
      · rw [b, aj] at same; cases same
      · rw [b] at a; cases a

theorem candidate_of_none {d : Device} (none : ∀ h, ¬ Fits d d.asu.need h) : candidate d = .none := by
  unfold candidate
  rw [find_isCandidate_none (.inl rfl) fun j fj => absurd fj (none j),
    find_isCandidate_none (.inr rfl) fun j fj => absurd fj (none j)]

/-! ## SEEKING (R147) -/

theorem kitChangeOpen_iff (d : Device) : kitChangeOpen d = true ↔ d.hpt.presence = .present ∧
    d.hpt.kitChange = none ∧ (d.tpm.grade = some .a ∨ d.tpm.grade = some .b) ∧ anyOpen d = false ∧
    d.asu.need.barred = false := by
  simp [kitChangeOpen, kitOrderTaken, gradeAB, and_assoc]

section SeekEval

variable {d : Device} (entry : Bool)

theorem seekEval_of_join {c : KitChange} (h : d.hpt.kitChange = some c) (kit : c.kit = d.asu.need.kit) :
    seekEval entry d = setNeed { d.asu.need with state := .kitChange, seekTimer := none } d := by
  simp [seekEval, h, kit]

variable (other : ∀ c, d.hpt.kitChange = some c → c.kit ≠ d.asu.need.kit)

include other

theorem seekEval_of_other : seekEval entry d = match candidate d with
    | some h => offerClaim h (setNeed { d.asu.need with
        state := .claiming, target := some h, claimSent := false, seekTimer := none } d)
    | none =>
      if kitChangeOpen d then
        setNeed { d.asu.need with state := .kitChange, seekTimer := none } (kitOrder d.asu.need.kit d)
      else if entry then offerSeek d
      else d := by
  have : ¬ d.hpt.kitChange.any (fun c => c.kit == d.asu.need.kit) = true := by
    simpa [Option.any_eq_true] using other
  unfold seekEval
  exact if_neg this

end SeekEval

/-- How the need at `d` moves at an evaluation in SEEKING; `e` is the device after it. -/
def SeekMoves (enters : Bool) (d : Device) (n : Need) (e : Device) : Prop :=
  (∀ c, d.hpt.kitChange = some c → c.kit = n.kit → e = setNeed { n with state := .kitChange, seekTimer := none } d) ∧
  ((∀ c, d.hpt.kitChange = some c → c.kit ≠ n.kit) →
    (∀ h, Best d n h → e = offer (.claim h n.kit (n.cls.getD 0)) (setNeed { n with
      state := .claiming, target := some h, claimSent := false, seekTimer := none
      lastClass := some (n.cls.getD 0) } d)) ∧
    ((∀ h, ¬ Fits d n h) →
      (d.hpt.presence = .present ∧ d.hpt.kitChange = none ∧
        (d.tpm.grade = some .a ∨ d.tpm.grade = some .b) ∧ anyOpen d = false ∧ n.barred = false →
        e = setNeed { n with state := .kitChange, seekTimer := none } { d with
          hpt := { d.hpt with
            kitChange := some ⟨n.kit, (cfg d).kitTimeout * 60000⟩, kit := 0, soak := none, soaked := none }
          lines := { d.lines with handlerOut := d.lines.handlerOut ++ [.kit n.kit] } }) ∧
      (¬ (d.hpt.presence = .present ∧ d.hpt.kitChange = none ∧
        (d.tpm.grade = some .a ∨ d.tpm.grade = some .b) ∧ anyOpen d = false ∧ n.barred = false) →
        e = if enters then setNeed { n with seekTimer := some 60000 }
          (offer (.seek n.kit (n.cls.getD 0)) (setNeed n d)) else d)))

theorem seekMoves_seekEval {enters : Bool} {d : Device} {n : Need} (same : enters = false → n = d.asu.need) :
    SeekMoves enters d n (seekEval enters (setNeed n d)) := by
  refine ⟨fun c hc kit => ?_, fun other => ⟨fun h best => ?_, fun none => ?_⟩⟩
  · exact seekEval_of_join (d := setNeed n d) enters hc kit
  · rw [seekEval_of_other (d := setNeed n d) enters other, candidate_of_best (d := setNeed n d) best]
    rfl
  · rw [seekEval_of_other (d := setNeed n d) enters other, candidate_of_none (d := setNeed n d) none]
    dsimp only
    refine ⟨fun order => ?_, fun order => ?_⟩
    · rw [if_pos ((kitChangeOpen_iff (setNeed n d)).2 order)]
      rfl
    · rw [if_neg ((kitChangeOpen_iff (setNeed n d)).not.2 order)]
      cases enters with
      | false => rw [same rfl]; rfl
      | true => rfl

/-! ## The evaluation (R144, R152) -/

theorem needEval_of_idle {d : Device} {i : Fin 8} {l : Lot} (idle : d.asu.need.state = .idle)
    (h : stagingLot d = some (i, l)) : needEval d =
      if needExists d then toSeeking (setNeed { Need.idle with kit := l.kit, cls := some l.cls } d) else d := by
  simp only [needEval, idle, h]

theorem needEval_of_seeking {d : Device} (h : d.asu.need.state = .seeking) :
    needEval d = if needExists d then seekEval false d else endNeed d := by simp only [needEval, h]

theorem needEval_of_claim {d : Device} (h : d.asu.need.state = .claiming ∨ d.asu.need.state = .won) :
    needEval d = if needExists d then d else endNeed d := by
  rcases h with h | h <;> simp only [needEval, h]

theorem needEval_of_kitChange {d : Device} (h : d.asu.need.state = .kitChange) :
    needEval d = if d.hpt.kitChange.isSome then d else if needExists d then toSeeking d else endNeed d := by
  simp only [needEval, h]

/-- The staging report with no change of the staging lot, and with one (log 39). -/
theorem stagingReport_of_same {d : Device} (h : (stagingLot d).map (·.2.id) = d.asu.staging) : stagingReport d = d := by
  unfold stagingReport
  exact if_pos h

/-- ASU notes the staging lot it was told of. -/
def toldStaging (d : Device) : Device :=
  { d with asu := { d.asu with staging := (stagingLot d).map (·.2.id) } }

theorem stagingReport_of_change {d : Device} (h : (stagingLot d).map (·.2.id) ≠ d.asu.staging) :
    (d.asu.staging = none → stagingReport d = toldStaging d) ∧
    (d.asu.staging ≠ none → stagingLot d = none → stagingReport d = endNeed (toldStaging d)) ∧
    ∀ i l, d.asu.staging ≠ none → stagingLot d = some (i, l) →
      stagingReport d = if d.asu.need.state = .idle then toldStaging d
        else if l.kit = d.asu.need.kit then setNeed { d.asu.need with cls := some l.cls } (toldStaging d)
        else endNeed (toldStaging d) := by
  unfold stagingReport
  dsimp only
  rw [if_neg h]
  refine ⟨fun before => ?_, fun before now => ?_, fun i l before now => ?_⟩
  · rw [before]; rfl
  · obtain ⟨x, hx⟩ := Option.ne_none_iff_exists'.1 before
    simp only [hx, now, toldStaging]
  · obtain ⟨x, hx⟩ := Option.ne_none_iff_exists'.1 before
    simp only [hx, now, toldStaging]

theorem not_or_ne_true {p : Prop} {b : Bool} (h : ¬ p ∨ b = true) : ¬ (p ∧ b = false) := by
  rcases h with h | h
  · exact fun k => h k.1
  · exact fun k => by simp [h] at k

/-- Settles O38: the branches of `offer`, `seekEval`, `needEval`, `stagingReport` and `endNeed`. -/
theorem offersAndTheNeed : Obligations.OffersAndTheNeed := by
  refine ⟨fun b d accepts => ?_, insertEntry_split, fun i l d staging idle => ?_, fun enters d => ?_,
    fun d state unneeded => ?_, fun d => ?_, fun d => ?_, fun d => ?_⟩
  · have accepts := (queueAccepts_iff _).2 accepts
    have status : ∀ q, isStatus q = true → unmarked q = true := fun q h => by
      rw [(isStatus_iff q).1 h]; rfl
    have seek : ∀ q, isSeek q = true → unmarked q = true := fun q h => by
      obtain ⟨k, p, rfl⟩ := (isSeek_iff q).1 h; rfl
    refine ⟨fun p => queuedInstead b p d.fli, QueueFull d.fli, fun p => rfl, Iff.rfl, fun h => ?_, fun new =>
      ⟨fun place => ?_, fun full h => ?_, fun full noStatus h => ?_, fun full h => ?_⟩⟩
    · rw [offer_of_replaces accepts h, enqueue_removeQueued_fli]
    · rw [offer_of_place accepts new place, enqueue_eq]
    · obtain ⟨e, he, eq⟩ := h
      rw [offer_of_status accepts new full ⟨e, he, (isStatus_iff _).2 eq⟩, enqueue_removeQueued_of_unmarked b status]
    · obtain ⟨e, he, eq⟩ := h
      rw [offer_of_seek accepts new full (fun x hx => (isStatus_eq_false_iff _).2 (noStatus x hx))
        ⟨e, he, (isSeek_iff _).2 eq⟩, enqueue_removeQueued_of_unmarked b seek]
    · rw [offer_of_refused accepts new full
        (fun x hx => (isStatus_eq_false_iff _).2 (h x hx).1) (fun x hx => (isSeek_eq_false_iff _).2 (h x hx).2)]
      refine ⟨refuseOffer_fli b d, ?_⟩
      cases b with
      | claim => rw [refuseOffer, claimLost_ctp]; rfl
      | _ => rfl
  · have needed := needExists_of_staging staging
    rw [needEval_of_idle idle staging]
    exact ⟨fun lacks => if_neg (needed.not.2 lacks), fun lacks => if_pos (needed.2 lacks)⟩
  · refine ⟨needExists d = true, _, _, Fits d _, Best d _, _, needExists_iff d, rfl, rfl, fun h => Iff.rfl,
      fun h => Iff.rfl, Iff.rfl, fun begins => ?_, fun state needed => ?_, fun state => ⟨fun flight => ?_,
      fun ended needed => ?_, fun ended unneeded => ?_⟩, fun h state target unneeded => ⟨_, rfl, ?_⟩⟩
    · cases enters with
      | true => exact seekMoves_seekEval fun h => nomatch h
      | false =>
        obtain ⟨seeking, needed⟩ := begins.resolve_left (by simp)
        have e : needEval d = seekEval false (setNeed d.asu.need d) :=
          (needEval_of_seeking seeking).trans (if_pos needed)
        have moves := seekMoves_seekEval (enters := false) (d := d) fun _ => rfl
        rw [← e] at moves
        exact moves
    · rw [needEval_of_claim state, if_pos needed]
    · rw [needEval_of_kitChange state, if_pos (Option.isSome_iff_ne_none.2 flight)]
    · rw [needEval_of_kitChange state, ended, if_neg (by simp), if_pos needed]
    · rw [needEval_of_kitChange state, ended, if_neg (by simp), if_neg unneeded,
        endNeed_of_other (by simp [state]) (by simp [state])]
    · rw [needEval_of_claim (.inl state), if_neg unneeded, endNeed_of_claiming state target]
  · have unneeded : ¬ needExists d = true := fun needed => by
      obtain ⟨i, l, staging, lacks⟩ := (needExists_iff d).1 needed
      obtain ⟨docked, kit, grade⟩ := unneeded i l staging
      exact lacks.elim docked fun h => h.elim (· kit) grade
    have ends : needEval d = endNeed d := by
      rcases state with h | h
      · rw [needEval_of_seeking h, if_neg unneeded]
      · rw [needEval_of_claim h, if_neg unneeded]
    rw [ends]
    exact ⟨rfl, fun h => endNeed_of_other (by simp [h]) (by simp [h]), fun h w t => endNeed_of_won w t⟩
  · refine ⟨_, toldStaging d, rfl, rfl, stagingReport_of_same, fun change => ?_⟩
    obtain ⟨enters, leaves, replaced⟩ := stagingReport_of_change change
    refine ⟨enters, leaves, fun i l before now => ?_⟩
    rw [replaced i l before now]
    exact ⟨fun h => if_pos h, fun h k => by rw [if_neg h, if_pos k], fun h k => by rw [if_neg h, if_neg k]⟩
  · exact ⟨fun n => rfl, rfl, endNeed_of_other, endNeed_of_unaimed,
      fun h c t => ⟨_, rfl, endNeed_of_claiming c t⟩, fun h w t => endNeed_of_won w t⟩
  · exact ⟨fun w o => if_pos ⟨w, o⟩, fun h => if_neg (not_or_ne_true h), fun c o => if_pos ⟨c, o⟩,
      fun h => if_neg (not_or_ne_true h)⟩

end Sys2Proof.Machine
end

section
/-! How the cell starts its work (O20): the reads of the lot table, and each check with its conditions. -/

namespace Sys2Proof.Machine

/-! ## Reads of the lot table (R7) -/

theorem anyOpen_iff (d : Device) : anyOpen d = true ↔ ∃ i l, lotAt d i = some l ∧ l.opened = true := by
  simp only [anyOpen, openLot, List.find?_isSome, Prod.exists, mem_lotList]

theorem openLot_eq_none_iff (d : Device) : openLot d = none ↔ ∀ i l, lotAt d i = some l → l.opened = false := by
  simp only [openLot, List.find?_eq_none, Prod.forall, mem_lotList, Bool.not_eq_true]

theorem stagingLot_eq_none_iff (d : Device) :
    stagingLot d = none ↔ ∀ i l, lotAt d i = some l → l.state ≠ .staging := by
  simp only [stagingLot, List.find?_eq_none, Prod.forall, mem_lotList, beq_iff_eq, ne_eq]

theorem anyOpen_eq_false_iff (d : Device) : anyOpen d = false ↔ ∀ i l, lotAt d i = some l → l.opened = false := by
  rw [← openLot_eq_none_iff, anyOpen, Option.isSome_eq_false_iff, Option.isNone_iff_eq_none]

/-- In queue order the lot that `queueBefore` puts before the others with `p` is picked. -/
theorem firstInQueueOrder_eq_some {d : Device} {p : Lot → Bool} {i : Fin 8} {l : Lot} (hl : lotAt d i = some l)
    (hp : p l = true) (first : ∀ j m, lotAt d j = some m → p m = true → j ≠ i → queueBefore l m = true) :
    firstInQueueOrder d p = some (i, l) := by
  cases picked : firstInQueueOrder d p with
  | none =>
    have absent := (firstInQueueOrder_eq_none_iff d p).1 picked i l hl
    rw [hp] at absent
    cases absent
  | some e =>
    obtain ⟨j, m⟩ := e
    obtain ⟨hm, pm⟩ := firstInQueueOrder_some picked
    have same : j = i := by
      by_contra other
      have notBefore := firstInQueueOrder_first picked hl hp
      rw [first j m hm pm other] at notBefore
      cases notBefore
    subst same
    obtain rfl := Option.some.inj (hl.symm.trans hm)
    rfl

theorem stagingSelect_of_busy {d : Device}
    (h : ∃ i l, lotAt d i = some l ∧ (l.opened = true ∨ l.state = .staging)) : stagingSelect d = d := by
  obtain ⟨i, l, hl, busy⟩ := h
  refine if_pos ?_
  rw [Bool.or_eq_true, Option.isSome_iff_ne_none]
  rcases busy with opened | staging
  · exact .inl ((anyOpen_iff d).2 ⟨i, l, hl, opened⟩)
  · exact .inr fun none => stagingLot_none none hl staging

theorem stagingSelect_of_free {d : Device}
    (h : ∀ i l, lotAt d i = some l → l.opened = false ∧ l.state ≠ .staging) : stagingSelect d =
      match firstInQueueOrder d (fun l => l.state == .queued) with
      | some (i, _) => modifyLot i (fun l => { l with state := .staging }) d
      | none => d := by
  have noneOpen := (anyOpen_eq_false_iff d).2 fun i l hl => (h i l hl).1
  have noStaging := (stagingLot_eq_none_iff d).2 fun i l hl => (h i l hl).2
  unfold stagingSelect
  rw [noneOpen, noStaging]
  exact if_neg (by simp)

theorem stagingSelect_of_first {d : Device} {i : Fin 8} {l : Lot}
    (free : ∀ i l, lotAt d i = some l → l.opened = false ∧ l.state ≠ .staging) (hl : lotAt d i = some l)
    (queued : l.state = .queued)
    (first : ∀ j m, lotAt d j = some m → m.state = .queued → j ≠ i → queueBefore l m = true) :
    stagingSelect d = putLot i (some { l with state := .staging }) d := by
  rw [stagingSelect_of_free free]
  rw [firstInQueueOrder_eq_some hl (by simp [queued]) fun j m hm waits => first j m hm (by simpa using waits)]
  exact modifyLot_some _ hl

/-! ## The load and the soak (R25, R45) -/

theorem armedFor_iff (d : Device) (l : Lot) : armedFor d l = true ↔
    d.tpt.arm.state = .armed ∧ d.tpt.arm.lot = l.id ∧ d.tpt.arm.insertion = l.cur := by
  simp [armedFor, and_assoc]

theorem passOf_eq_some_iff (l : Lot) (k : Nat) : passOf l = some k ↔ l.step = some (.pass k) := by
  unfold passOf
  split <;> simp_all

theorem passOf_eq_none_iff (l : Lot) : passOf l = none ↔ ∀ k, l.step ≠ some (.pass k) := by
  unfold passOf
  split <;> simp_all

theorem markAfter_some (mark before : Option Nat) (n : Nat) : markAfter mark before (some n) =
    if before ≠ some n ∧ mark ≠ some n then none else mark := by
  simp only [markAfter, Option.isSome_some, true_and, ne_comm]

theorem markAfter_none (mark before : Option Nat) : markAfter mark before none = mark := by simp [markAfter]

/-- R25: what the load check has noted of its target. -/
def notedLoad (l : Lot) (d : Device) : Device :=
  { d with tpt := { d.tpt with
    loadBlocked := if d.tpt.target ≠ some l.id ∧ d.tpt.loadBlocked ≠ some l.id then none else d.tpt.loadBlocked
    target := some l.id } }

theorem loadCheck_of_target {l : Lot} {d : Device} (h : loadTarget d = some l) : loadCheck d =
    if (currentEntry l).program ≠ d.tpt.loaded ∧ d.tpt.load = none ∧ d.tpt.link = .up ∧ d.tpt.arm.state ≠ .sent ∧
      (notedLoad l d).tpt.loadBlocked ≠ some l.id then startLoad l (notedLoad l d) else notedLoad l d := by
  unfold loadCheck
  rw [h]
  simp only [Option.map_some, markAfter_some]
  rfl

theorem loadCheck_of_none {d : Device} (h : loadTarget d = none) :
    loadCheck d = { d with tpt := { d.tpt with target := none } } := by
  unfold loadCheck
  rw [h]
  simp only [Option.map_none, markAfter_none]
  rfl

/-- R45: what the soak check has noted of its target. -/
def notedSoak (l : Lot) (d : Device) : Device :=
  { d with hpt := { d.hpt with
    soakBlocked := if d.hpt.soakTarget ≠ some l.id ∧ d.hpt.soakBlocked ≠ some l.id then none else d.hpt.soakBlocked
    soakTarget := some l.id } }

/-- R45: the conditions of SETPOINT. -/
def SoakDue (l : Lot) (d : Device) : Prop :=
  d.hpt.soaked ≠ some (currentEntry l).temp ∧ d.hpt.presence = .present ∧ d.hpt.kit = l.kit ∧
    d.hpt.soakHeard = true ∧ (l.state = .staging → d.tpm.grade = some .a ∨ d.tpm.grade = some .b) ∧
    d.hpt.soak = none ∧ d.hpt.kitChange = none ∧ (notedSoak l d).hpt.soakBlocked ≠ some l.id

theorem gradeAB_iff (g : Option Grade) : gradeAB g = true ↔ g = some .a ∨ g = some .b := by simp [gradeAB]

theorem soakDue_iff (l : Lot) (d : Device) : SoakDue l d ↔
    d.hpt.soaked ≠ some (currentEntry l).temp ∧ d.hpt.presence = .present ∧ d.hpt.kit = l.kit ∧
      d.hpt.soakHeard = true ∧ (l.state ≠ .staging ∨ gradeAB d.tpm.grade = true) ∧
      d.hpt.soak = none ∧ d.hpt.kitChange = none ∧ (notedSoak l d).hpt.soakBlocked ≠ some l.id := by
  rw [SoakDue, gradeAB_iff, Decidable.imp_iff_not_or]

theorem soakCheck_of_target {l : Lot} {d : Device} (h : soakTarget d = some l) :
    (SoakDue l d → soakCheck d = startSoak l (notedSoak l d)) ∧ (¬ SoakDue l d → soakCheck d = notedSoak l d) := by
  unfold soakCheck
  rw [h, soakDue_iff]
  simp only [Option.map_some, markAfter_some]
  exact ⟨fun due => if_pos due, fun notDue => if_neg notDue⟩

theorem soakCheck_of_none {d : Device} (h : soakTarget d = none) :
    soakCheck d = { d with hpt := { d.hpt with soakTarget := none } } := by
  unfold soakCheck
  rw [h]
  simp only [Option.map_none, markAfter_none]
  rfl

theorem targets_of_staging {d : Device} {i : Fin 8} {l : Lot} (h : stagingLot d = some (i, l)) :
    loadTarget d = some l ∧ soakTarget d = some l := by simp only [loadTarget, soakTarget, h, and_self]

theorem targets_of_none {d : Device} (s : stagingLot d = none) (o : openLot d = none) :
    loadTarget d = none ∧ soakTarget d = none := by simp only [loadTarget, soakTarget, s, o, and_self]

theorem targets_of_open {d : Device} {i : Fin 8} {l : Lot} (s : stagingLot d = none) (o : openLot d = some (i, l)) :
    loadTarget d = (if (passOf l).isSome && !armedFor d l then some l else none) ∧
    soakTarget d = if (passOf l).isSome then some l else none := by simp only [loadTarget, soakTarget, s, o, and_self]

/-! ## Readiness and the restore (R12, R13, R30, R51) -/

theorem getLsbD_siteBits (p : Fin 8 → Bool) (j : Fin 8) : (siteBits p).getLsbD j.val = p j := by
  have bit : ∀ s j : Fin 8, (1#8 <<< s.val).getLsbD j.val = decide (s = j) := by decide
  have fold (sites : List (Fin 8)) : ∀ acc : BitVec 8,
      (sites.foldl (fun acc s => if p s then acc ||| (1#8 <<< s.val) else acc) acc).getLsbD j.val =
        (acc.getLsbD j.val || (decide (j ∈ sites) && p j)) := by
    induction sites with
    | nil => simp
    | cons s sites ih =>
      intro acc
      rw [List.foldl_cons, ih]
      have one : (if p s then acc ||| (1#8 <<< s.val) else acc).getLsbD j.val =
          (acc.getLsbD j.val || (decide (s = j) && p s)) := by
        cases p s
        · simp
        · simp only [if_true, BitVec.getLsbD_or, bit, Bool.and_true]
      rw [one]
      by_cases same : s = j
      · subst same
        cases p s <;> simp
      · simp [same, Ne.symm same]
  have all : j ∈ siteList := mem_slots j
  rw [siteBits, fold]
  simp [all]

theorem enabledMask_iff (d : Device) (j : Fin 8) :
    (enabledMask d).getLsbD j.val = true ↔ d.tpt.mask[j] = .enabled := by
  rw [enabledMask, getLsbD_siteBits, beq_iff_eq]

theorem handlerReady_iff (d : Device) (l : Lot) : handlerReady d l = true ↔
    d.hpt.presence = .present ∧ d.hpt.kit = l.kit ∧ (d.tpm.grade = some .a ∨ d.tpm.grade = some .b) ∧
      d.hpt.soaked = some (currentEntry l).temp := by
  simp only [handlerReady, soakedAt, Bool.and_eq_true, beq_iff_eq, gradeAB_iff]
  tauto

theorem testerReady_iff (d : Device) (l : Lot) : testerReady d l = true ↔
    d.tpt.loaded = (currentEntry l).program ∧ d.tpt.load = none ∧ d.tpt.link = .up ∧ d.tpt.arm.state ≠ .sent := by
  simp [testerReady, and_assoc]

section ReadyCheck

variable {d : Device} {i : Fin 8} {l : Lot} (staging : stagingLot d = some (i, l))

include staging

theorem readyCheck_of_closed (closed : l.opened = false) : readyCheck d =
    if handlerReady d l && testerReady d l then insertionStart i l d else d := by
  simp only [readyCheck, staging, closed, Bool.not_false, if_true]

theorem readyCheck_of_open {k : Nat} (opened : l.opened = true) (pass : passOf l = some k) : readyCheck d =
    if armedFor d l then (if handlerReady d l then enterPass i l k d else d)
    else if handlerReady d l && testerReady d l && d.tpt.armRefused != some l.id then sendArm l (enabledMask d) d
    else d := by
  simp only [readyCheck, staging, opened, Bool.not_true, Bool.false_eq_true, if_false, pass]

theorem readyCheck_of_drain (opened : l.opened = true) (noPass : passOf l = none) : readyCheck d = d := by
  simp only [readyCheck, staging, opened, Bool.not_true, Bool.false_eq_true, if_false, noPass]

end ReadyCheck

theorem enterPass_of_started {d : Device} {i : Fin 8} {l : Lot} (hl : lotAt d i = some l) (k : Nat)
    (started : l.passStarted = true) : enterPass i l k d =
      putLot i (some { l with state := passState k, resume := none, passStarted := true }) d := by
  simp only [enterPass, started, if_true, modifyLot_some _ hl]

theorem enterPass_of_new {d : Device} {i : Fin 8} {l : Lot} (hl : lotAt d i = some l) (k : Nat)
    (new : l.passStarted = false) : enterPass i l k d =
      putLot i (some { l with state := passState k, resume := none, passStarted := true })
        (setHpt (fun h => { h with pass := some k, passHandler := h.handler, intake := 0 })
          (sendHandler (.startPass k (unitCount l k)) d)) := by
  rw [enterPass, new, if_neg (by simp), startPass, sendHandler_modifyLot, setHpt_modifyLot, modifyLot_modifyLot]
  exact modifyLot_some _ (show lotAt (setHpt _ _) i = some l from hl)

theorem restoreCheck_of_open {d : Device} {i : Fin 8} {l : Lot} (h : openLot d = some (i, l)) : restoreCheck d =
    if l.state ≠ .staging ∧ (passOf l).isSome = true ∧ armedFor d l = false ∧ testerReady d l = true ∧
      d.tpt.armRefused ≠ some l.id then sendArm l (enabledMask d) d else d := by
  simp only [restoreCheck, h]

theorem insertionStart_eq {d : Device} {i : Fin 8} {l : Lot} (hl : lotAt d i = some l) : insertionStart i l d =
    sendArm l 0xFF (setTpm (fun t => { t with carry := 0 })
      (setHpt (fun h => { h with pass := none, passHandler := none, intake := 0 })
        (setTpt (fun t => { t with
          mask := Vector.replicate 8 .enabled, outstanding := [], armRefused := none, lastClosed := none
          silence := some Config.silenceMs }) (putLot i (some (openInsertion l)) d)))) := by
  unfold insertionStart
  rw [modifyLot_some _ hl]

/-! ## The idle timer and the QUERY intervals (R23, R41, R153) -/

theorem handlerIdle_iff (d : Device) : handlerIdle d = true ↔ dockedHandler d ≠ none ∧
    ∀ i l, lotAt d i = some l → l.opened = false ∧ l.state ≠ .staging ∧ (l.state = .queued → l.kit ≠ d.hpt.kit) := by
  simp only [handlerIdle, Bool.and_eq_true, Bool.not_eq_true', Option.isSome_iff_ne_none, Option.isNone_iff_eq_none,
    List.all_eq_true, anyOpen_eq_false_iff, stagingLot_eq_none_iff, Prod.forall, mem_lotList, Bool.and_eq_false_iff,
    beq_eq_false_iff_ne]
  constructor
  · rintro ⟨⟨⟨docked, closed⟩, noStaging⟩, kits⟩
    exact ⟨docked, fun i l hl => ⟨closed i l hl, noStaging i l hl, fun q => (kits i l hl).resolve_left (not_not.2 q)⟩⟩
  · rintro ⟨docked, all⟩
    exact ⟨⟨⟨docked, fun i l hl => (all i l hl).1⟩, fun i l hl => (all i l hl).2.1⟩, fun i l hl =>
      or_iff_not_imp_left.2 fun q => (all i l hl).2.2 (not_not.1 q)⟩

theorem idleEval_of_idle {d : Device} (h : handlerIdle d = true) : idleEval d = { d with asu := { d.asu with
    idleTimer := some (d.asu.idleTimer.getD (minutes (cfg d).idleRelease)) } } := by
  unfold idleEval
  rw [if_pos h]
  cases d.asu.idleTimer <;> rfl

theorem idleEval_of_busy {d : Device} (h : ¬ handlerIdle d = true) :
    idleEval d = { d with asu := { d.asu with idleTimer := none } } := by
  unfold idleEval
  rw [if_neg h]

theorem keepRunning_eq (on : Bool) (ms : Nat) (t : Timer) :
    keepRunning on ms t = if on = true then some (t.getD ms) else none := by
  cases t <;> rfl

/-- Settles O20: each check's conditions as its definition lists them. -/
theorem theCellStartsItsWork : Obligations.TheCellStartsItsWork := by
  refine ⟨fun d => ⟨stagingSelect_of_busy, fun free => ⟨fun none => ?_, fun i l hl queued first => ?_⟩⟩,
    fun l d target => ?_, fun l d target => ?_, fun i l d hl => ?_, fun d => ?_, fun d => ?_, fun d => ?_, fun d => ?_⟩
  · rw [stagingSelect_of_free free,
      (firstInQueueOrder_eq_none_iff d _).2 fun i l hl => by simpa using none i l hl]
  · exact stagingSelect_of_first free hl queued first
  · refine ⟨_, _, notedLoad l d, rfl, rfl, rfl, fun other free up notSent notBlocked => ?_, fun h => ?_⟩
    · rw [loadCheck_of_target target, if_pos ⟨other.symm, free, up, notSent, notBlocked⟩]
      rfl
    · rw [loadCheck_of_target target, if_neg]
      rintro ⟨other, free, up, notSent, notBlocked⟩
      rcases h with h | h | h | h | h
      · exact other h.symm
      · exact h free
      · exact h up
      · exact notSent h
      · exact notBlocked h
  · obtain ⟨due, notDue⟩ := soakCheck_of_target target
    exact ⟨_, _, notedSoak l d, SoakDue l d, rfl, rfl, rfl, Iff.rfl, due, notDue⟩
  · refine ⟨handlerReady d l = true, testerReady d l = true, _, enabledMask d, handlerReady_iff d l, rfl,
      testerReady_iff d l, enabledMask_iff d, fun staging closed => ⟨fun h => ?_, fun hand test => ?_⟩,
      fun k staging opened step => ⟨_, _, rfl, rfl, ?_⟩, fun k opened notStaging step => ⟨fun notArmed test notRefused => ?_,
      fun h => ?_⟩⟩
    · rw [readyCheck_of_closed staging closed, if_neg (by simpa using h)]
    · rw [readyCheck_of_closed staging closed, if_pos (by simp [hand, test]), insertionStart_eq hl]
      rfl
    · rw [readyCheck_of_open staging opened ((passOf_eq_some_iff l k).2 step)]
      refine ⟨fun armed hand => ?_, fun armed hand started => ?_, fun armed hand new => ?_,
        fun notArmed hand test notRefused => ?_, fun notArmed h => ?_⟩
      · rw [if_pos armed, if_neg hand]
      · rw [if_pos armed, if_pos hand, enterPass_of_started hl k started]
        rfl
      · rw [if_pos armed, if_pos hand, enterPass_of_new hl k new]
        rfl
      · rw [if_neg (by simp [notArmed]), if_pos (by simp [hand, test, notRefused])]
        rfl
      · rw [if_neg (by simp [notArmed]), if_neg]
        simp only [Bool.and_eq_true, bne_iff_ne]
        rintro ⟨⟨hand, test⟩, notRefused⟩
        exact h.elim (· hand) fun h => h.elim (· test) notRefused
    · rw [restoreCheck_of_open opened, if_pos ⟨notStaging, by simp [(passOf_eq_some_iff l k).2 step], notArmed, test,
        notRefused⟩]
      rfl
    · rw [restoreCheck_of_open opened, if_neg]
      rintro ⟨-, -, notArmed, test, notRefused⟩
      rcases h with h | h | h
      · rw [notArmed] at h; cases h
      · exact h test
      · exact notRefused h
  · refine ⟨armedFor_iff d, fun i l => targets_of_staging, targets_of_none, fun i l staging opened => ⟨?_, ?_⟩,
      loadCheck_of_none, soakCheck_of_none, fun h => by simp only [readyCheck, h], fun h => by simp only [restoreCheck, h],
      fun i l staging opened noPass => ?_, fun i l opened h => ?_⟩
    · rintro ⟨k, step⟩
      obtain ⟨load, soak⟩ := targets_of_open staging opened
      rw [load, soak, (passOf_eq_some_iff l k).2 step]
      cases armedFor d l <;> exact ⟨rfl, rfl⟩
    · intro noPass
      obtain ⟨load, soak⟩ := targets_of_open staging opened
      rw [load, soak, (passOf_eq_none_iff l).2 noPass]
      exact ⟨rfl, rfl⟩
    · exact readyCheck_of_drain staging opened ((passOf_eq_none_iff l).2 noPass)
    · rw [restoreCheck_of_open opened, if_neg]
      rintro ⟨notStaging, pass, -⟩
      rcases h with h | h
      · exact notStaging h
      · simp [(passOf_eq_none_iff l).2 h] at pass
  · refine ⟨settleOnce, by simp [live], fun e => rfl, fun h => if_pos h, fun h => if_neg (by simp [h])⟩
  · refine ⟨_, _, rfl, rfl, Iff.rfl, handlerIdle_iff d, fun idle => idleEval_of_idle ((handlerIdle_iff d).2 idle),
      fun busy => idleEval_of_busy ((handlerIdle_iff d).not.2 busy), ?_⟩
    simp only [queryEval, setTpt, setHpt, keepRunning_eq, Bool.or_eq_true, bne_iff_ne, beq_iff_eq]
    rfl
  · exact ⟨anyOpen_iff d, openLot_eq_none_iff d, fun i l => openLot_some, stagingLot_eq_none_iff d,
      fun i l => stagingLot_some⟩

end Sys2Proof.Machine
end

section
/-! The step, the timers and the resets (O1, O2, O3, O5, O6). -/

namespace Sys2Proof.Machine

/-! ## The step and its timers (logs 2 and 3) -/

/-- Settles O1: by the definition of the step. -/
theorem stepTakesTheFrontCommand : Obligations.StepTakesTheFrontCommand := fun _ _ _ => rfl

theorem vmap_eq_ofFn {α β : Type} {n : Nat} (f : α → β) (v : Vector α n) :
    vmap f v = Vector.ofFn fun i => f v[i] := by
  ext i hi
  simp [vmap]

theorem onTimer_of_stopped {running : Bool} (stopped : running = false) (act : Device → Device) (d : Device) :
    onTimer running act d = d := by
  rw [onTimer, stopped, Bool.and_false]
  rfl

theorem peerAt_fin (d : Device) (o : Fin 32) : peerAt d o.val = d.fli.peers[o] := by
  simp [peerAt, List.getD_eq_getElem?_getD]

theorem peerAt_of_ge (d : Device) {o : Nat} (h : 32 ≤ o) : peerAt d o = ⟨.unheard, none⟩ := by
  simp [peerAt, List.getD_eq_getElem?_getD, h]

/-- An expiry with its timer stopped changes nothing but the pins' refresh. -/
theorem commit_onTimer_of_stopped {running : Bool} (s : State) (stopped : running = false) (act : Device → Device) :
    commit s (onTimer running act s.dev) = .next (moved s s.dev) := by
  rw [onTimer_of_stopped stopped]
  rfl

theorem delayRuns_eq_false {d : Device} {n : Nat}
    (h : ∀ r, recordNumbered d n = some r → r.state ≠ .delayed ∨ r.timer = none) : delayRuns d n = false := by
  unfold delayRuns
  cases hr : recordNumbered d n with
  | none => rfl
  | some r => rcases h r hr with k | k <;> simp [k]

/-- Settles O2: `tick` counts each timer down by 1, and each expiry asks first whether its timer runs. -/
theorem timersTickAndExpireOnlyWhileRunning : Obligations.TimersTickAndExpireOnlyWhileRunning := by
  have stopped {α : Type} {t : Option α} (h : t = none) : t.isSome = false := by rw [h]; rfl
  have stoppedAnd {α : Type} {t : Option α} (b : Bool) (h : t = none) : (t.isSome && b) = false := by rw [h]; rfl
  refine ⟨fun d => ⟨fun h => ?_, fun h => ⟨tickTimer, rfl, rfl, fun _ => rfl, ?_⟩⟩, fun s => ?_, fun s => ?_⟩
  · rw [step, tick, h]
    rfl
  · rw [step, tick, if_pos h]
    simp only [tickFli, tickAsu, vmap_eq_ofFn]
    rfl
  · have expires {α : Type} {t : Option α} (act : Device → Device) (h : t = none) :
        commit s (onTimer t.isSome act s.dev) = .next (moved s s.dev) := commit_onTimer_of_stopped s (stopped h) act
    exact ⟨expires _, expires _, expires _, expires _, expires _, expires _, expires _, expires _, expires _, expires _,
      expires _, fun h => commit_onTimer_of_stopped s (stoppedAnd _ h) _,
      fun h => commit_onTimer_of_stopped s (stoppedAnd _ h) _, expires _⟩
  · exact ⟨fun h => commit_onTimer_of_stopped s (stopped h) _, fun h => commit_onTimer_of_stopped s (stopped h) _,
      fun o h => commit_onTimer_of_stopped s (by rw [peerAt_of_ge _ h]; rfl) _,
      fun o h => commit_onTimer_of_stopped s (by rw [peerAt_fin, h]; rfl) _,
      fun _ h => commit_onTimer_of_stopped s (stopped h) _,
      fun _ h => commit_onTimer_of_stopped s (delayRuns_eq_false h) _⟩

/-! ## The power-on reset (R212) -/

/-- A device as a power-on reset leaves it needs no refresh of its pins. -/
theorem refreshPins_powerOn (hold : ResetHold) (pins : Pins) (lines : Lines) :
    refreshPins (.powerOn hold pins lines) = .powerOn hold pins lines := by
  cases hold <;> rfl

theorem commit_powerOn (s : State) (hold : ResetHold) (pins : Pins) (lines : Lines) :
    commit s (.powerOn hold pins lines) = .next ⟨s.pending, .powerOn hold pins lines⟩ := by
  rw [commit, moved, refreshPins_powerOn]

theorem exec_powerOnResetEnd_of_held {s : State} (held : s.dev.ctp.hold = .powerOn) (straps : BitVec 5) :
    exec (.powerOnResetEnd straps) s =
      .next ⟨s.pending, .powerOn .running { s.dev.pins with straps, resetPin := .high } s.dev.lines⟩ := by
  show execPowerOnResetEnd straps s = _
  rw [execPowerOnResetEnd, if_pos held, commit_powerOn]

theorem exec_warmReset_of_powerOn {s : State} (held : s.dev.ctp.hold = .powerOn) :
    (∀ straps, exec (.warmReset (some straps)) s = .next ⟨s.pending, lowToMiddle straps s.dev⟩) ∧
    exec (.warmReset none) s = .next (moved s s.dev) := by
  refine ⟨fun straps => ?_, ?_⟩
  · show execWarmReset (some straps) s = _
    unfold execWarmReset
    rw [held]
    exact commit_powerOn ..
  · show execWarmReset none s = _
    unfold execWarmReset
    rw [held]
    rfl

/-- Settles O3: a power-on reset's device is written out in `Device.powerOn`. -/
theorem powerOnResetAndItsEnd : Obligations.PowerOnResetAndItsEnd := by
  refine ⟨fun byPin s => commit_powerOn .., fun straps s held => exec_powerOnResetEnd_of_held held straps,
    fun byPin s t pending lines ready taken => ?_, fun s held => exec_warmReset_of_powerOn held⟩
  have begun : exec (.powerOnReset byPin) s = _ := commit_powerOn ..
  obtain rfl := Host.Outcome.next.inj (begun.symm.trans taken)
  rw [exec_powerOnResetEnd_of_held rfl, State.reset]
  simp only [Device.powerOn, pending, lines, ready]

/-! ## The warm reset (R20, R200) -/

/-- The lot table and the ACCOUNTING bank apart, `e` is `d`. -/
def LotsOnly (d e : Device) : Prop :=
  e = { d with
    lmg := { d.lmg with lots := e.lmg.lots }, ctp := { d.ctp with accountingBank := e.ctp.accountingBank } }

theorem LotsOnly.exists {d e : Device} (h : LotsOnly d e) : ∃ lots b, e = { d with
    lmg := { d.lmg with lots }, ctp := { d.ctp with accountingBank := b } } := ⟨_, _, h⟩

theorem LotsOnly.trans {d e f : Device} (h : LotsOnly d e) (k : LotsOnly e f) : LotsOnly d f := by
  unfold LotsOnly at *
  rw [h] at k
  exact k

theorem lotsOnly_storeHold (i : Fin 8) (key : HoldKey) (u : Bool) (d : Device) :
    LotsOnly d (storeHold i key u d) := by
  unfold storeHold
  split
  · rfl
  dsimp only
  split <;> rfl

theorem lotsOnly_warmSlot (i : Fin 8) (d : Device) : LotsOnly d (warmSlot i d) := by
  unfold warmSlot
  dsimp only
  split
  · exact (lotsOnly_storeHold i .restart false d).trans rfl
  · rfl

theorem lotsOnly_warmLots (d : Device) : LotsOnly d (warmLots d) :=
  List.foldlRecOn (motive := fun e : Device => LotsOnly d e) slots _ rfl
    fun e h i _ => h.trans (lotsOnly_warmSlot i e)

/-- R20: the record of a lot after a warm reset at time `t`. -/
def warmRecord (t : Nat) (l : Lot) : Lot := warmLot (if l.opened then applyHold t .restart false l else l)

theorem lotAt_warmSlot (i j : Fin 8) (d : Device) : lotAt (warmSlot i d) j =
    if i = j then (lotAt d j).map (warmRecord (now d)) else lotAt d j := by
  unfold warmSlot
  dsimp only
  rw [lotAt_modifyLot]
  by_cases same : i = j
  · subst same
    cases hl : lotAt d i with
    | none => simp [hl]
    | some l =>
      cases opened : l.opened <;> simp [hl, opened, lotAt_storeHold, warmRecord]
  · rw [if_neg same, if_neg same]
    split
    · rw [lotAt_storeHold, if_neg (Ne.symm same)]
    · rfl

theorem now_of_lotsOnly {d e : Device} (h : LotsOnly d e) : now e = now d := by
  rw [h]
  rfl

theorem lotAt_foldl_warmSlot (sl : List (Fin 8)) (distinct : sl.Nodup) (d : Device) (j : Fin 8) :
    lotAt (sl.foldl (fun d i => warmSlot i d) d) j =
      if j ∈ sl then (lotAt d j).map (warmRecord (now d)) else lotAt d j := by
  induction sl generalizing d with
  | nil => simp
  | cons i sl ih =>
    obtain ⟨fresh, distinct⟩ := List.nodup_cons.1 distinct
    rw [List.foldl_cons, ih distinct, lotAt_warmSlot, now_of_lotsOnly (lotsOnly_warmSlot i d)]
    by_cases same : i = j
    · subst same
      simp [fresh]
    · simp [same, Ne.symm same]

theorem lotAt_warmLots (d : Device) (i : Fin 8) : lotAt (warmLots d) i = (lotAt d i).map (warmRecord (now d)) := by
  rw [warmLots, lotAt_foldl_warmSlot slots (by decide), if_pos (mem_slots i)]

/-- R200: the device with a warm reset begun, in JOINED. -/
theorem exec_warmReset_of_joined {byPin : Option (BitVec 5)} {s : State} (running : s.dev.ctp.hold = .running)
    (joined : s.dev.ctp.device = .joined) (asked : byPin ≠ none ∨ s.dev.ctp.restartPending = true) :
    ∃ u, LotsOnly (heldWarm byPin.isSome s.dev) u ∧
      (∀ i, lotAt u i = (lotAt s.dev i).map (warmRecord (now s.dev))) ∧
      exec (.warmReset byPin) s = .next (moved s { u with
        tpt := warmTpt u.tpt, hpt := warmHpt u.hpt, tpm := Tpm.reset, fli := warmFli u.fli, asu := warmAsu u.asu
        hdu := warmHdu (ownStation u) u.hdu
        rlu := { u.rlu with records := u.rlu.records.map (warmRelease (cfg u)) } }) := by
  refine ⟨warmLots (heldWarm byPin.isSome s.dev), lotsOnly_warmLots _, fun i => lotAt_warmLots _ i, ?_⟩
  show execWarmReset byPin s = _
  have asked : (byPin.isSome || s.dev.ctp.restartPending) = true := by
    rw [Bool.or_eq_true, Option.isSome_iff_ne_none]
    exact asked
  unfold execWarmReset
  rw [running]
  dsimp only
  rw [if_pos asked, beginWarm_eq, warmBlocks, show (heldWarm byPin.isSome s.dev).ctp.device = .joined from joined]
  rfl

theorem warmRecord_of_closed {t : Nat} {l : Lot} (closed : l.opened = false) :
    warmRecord t l = if l.state = .staging then { l with state := .queued } else l := by
  simp only [warmRecord, warmLot, closed, Bool.false_eq_true, if_false]

/-- What a hold request leaves of a lot record: all but hold set, hold count and overflow mark. -/
theorem applyHold_eq_holds (t : Nat) (key : HoldKey) (u : Bool) (l : Lot) : applyHold t key u l = { l with
    holds := (applyHold t key u l).holds, holdCount := (applyHold t key u l).holdCount
    overflow := (applyHold t key u l).overflow } := by
  unfold applyHold
  split <;> rfl

theorem warmRecord_of_open {t : Nat} {l : Lot} (opened : l.opened = true) : warmRecord t l = { l with
    holds := (applyHold t .restart false l).holds, holdCount := (applyHold t .restart false l).holdCount
    overflow := (applyHold t .restart false l).overflow
    state := .held, resume := some .staging, passStarted := false, unseen := l.unseen || l.state != .held } := by
  unfold warmRecord
  rw [if_pos opened, applyHold_eq_holds]
  unfold warmLot
  rw [if_pos opened]

/-- With a reset held or in CONFIG the run gate is shut. -/
theorem refreshPins_of_dead {d : Device} (h : live d = false) : (refreshPins d).pins.feed = false ∧
    (refreshPins d).hpt = { d.hpt with effRun := false, capSpoiled := d.hpt.capSpoiled || d.hpt.effRun } := by
  have feed : feedGate d = false := by rw [feedGate, h, Bool.false_and]
  refine ⟨feed, ?_⟩
  simp [refreshPins, feedEval, feed, runLevel]

/-- Settles O5: the blocks as `warmBlocks` writes them; the lots by `warmRecord`. -/
theorem warmResetBlockByBlock : Obligations.WarmResetBlockByBlock := by
  refine ⟨fun byPin s running joined asked => ?_, fun byPin s i l running joined asked hl => ?_⟩
  · obtain ⟨u, only, -, taken⟩ := exec_warmReset_of_joined running joined asked
    refine ⟨_, taken, ?_⟩
    obtain ⟨lots, accounting, rfl⟩ := only.exists
    have shut {e : Device} (h : e.ctp.hold = .warm) := refreshPins_of_dead (d := e) (live_eq_false_of_hold (by simp [h]))
    exact ⟨rfl, rfl, rfl, rfl, joined, rfl, rfl, rfl, rfl, rfl, rfl, rfl, rfl, (shut rfl).2, rfl, rfl, rfl, rfl, rfl, rfl,
      rfl, rfl, rfl, rfl, rfl, rfl, rfl, rfl, (shut rfl).1, congrArg Hpt.effRun (shut rfl).2, rfl⟩
  · obtain ⟨u, -, lots, taken⟩ := exec_warmReset_of_joined running joined asked
    refine ⟨_, _, taken, (lots i).trans (by rw [hl]; rfl), fun opened => ?_, fun closed staging => ?_,
      fun closed notStaging => ?_⟩
    · rw [warmRecord_of_open opened]
      refine ⟨rfl, rfl, rfl, opened, rfl, rfl, rfl, rfl, rfl, rfl, rfl, rfl, applyHold_holds .., fun notHeld => by simp [notHeld],
        fun fresh room => ?_⟩
      have none : l.holds.any (fun e => e.key == .restart) = false := by
        simpa [List.any_eq_false] using fresh
      simp [applyHold, holdOutcome, none, room]
    · rw [warmRecord_of_closed closed, if_pos staging]
    · rw [warmRecord_of_closed closed, if_neg notStaging]

/-! ## The end of the warm reset and the join clock (R192, R195, R200, R201) -/

theorem exec_warmResetEnd_of_warm {s : State} (warm : s.dev.ctp.hold = .warm) : exec .warmResetEnd s =
    .next (moved s (takeFrames s.dev.ctp.waiting (resumeBlocks (warmOver s.dev)))) := by
  show execWarmResetEnd s = _
  rw [execWarmResetEnd, if_pos warm]
  rfl

theorem warmOver_of_none {d : Device} (none : d.ctp.waiting = []) : warmOver d = { d with
    ctp := { d.ctp with hold := .running }, pins := { d.pins with resetPin := .high } } := by
  simp only [warmOver, setCtp, ← none]

/-- The frames before the last are taken, then the last one, on the device they leave. -/
theorem takeFrames_concat (before : List Instr) (c : Instr) (d : Device) :
    takeFrames (before ++ [c]) d = onFrame c (takenFrame c) (refreshPins (takeFrames before d)) := by
  rw [takeFrames, List.foldl_concat]
  rfl

theorem exec_requestFrame {c : Instr} (h : isRequestFrame c = true) (s : State) :
    exec c s = .next (moved s (onFrame c (takenFrame c) s.dev)) := by
  cases c with
  | configure | join | restart | statusRequest | read | retry | admitLot | withdraw | dispose | placeHold
  | placeFloorHold | liftFloor | override | clearSticky | clearFault | setGrade | collect | disposeRelease
  | badFrame => rfl
  | _ => cases h

theorem insertInQueueOrder_perm (e : Fin 8 × Lot) (es : List (Fin 8 × Lot)) :
    (insertInQueueOrder e es).Perm (e :: es) := by
  induction es with
  | nil => exact .refl _
  | cons x es ih =>
    rw [insertInQueueOrder]
    split
    · exact .refl _
    · exact (ih.cons x).trans (.swap ..)

theorem insertInQueueOrder_ordered (e : Fin 8 × Lot) {es : List (Fin 8 × Lot)}
    (h : es.Pairwise fun a b => queueBefore b.2 a.2 = false) :
    (insertInQueueOrder e es).Pairwise fun a b => queueBefore b.2 a.2 = false := by
  induction es with
  | nil => simp [insertInQueueOrder]
  | cons x es ih =>
    obtain ⟨behind, ordered⟩ := List.pairwise_cons.1 h
    rw [insertInQueueOrder]
    split
    · rename_i first
      refine List.pairwise_cons.2 ⟨fun y hy => ?_, h⟩
      rcases List.mem_cons.1 hy with rfl | hy
      · exact queueBefore_asymm first
      · exact queueBefore_false_trans (behind y hy) (queueBefore_asymm first)
    · rename_i notFirst
      refine List.pairwise_cons.2 ⟨fun y hy => ?_, ih ordered⟩
      rcases List.mem_cons.1 ((insertInQueueOrder_perm e es).mem_iff.1 hy) with rfl | hy
      · simpa using notFirst
      · exact behind y hy

theorem foldr_insertInQueueOrder (es : List (Fin 8 × Lot)) : (es.foldr insertInQueueOrder []).Perm es ∧
    (es.foldr insertInQueueOrder []).Pairwise fun a b => queueBefore b.2 a.2 = false := by
  induction es with
  | nil => exact ⟨.refl _, .nil⟩
  | cons e es ih =>
    exact ⟨(insertInQueueOrder_perm e _).trans (ih.1.cons e), insertInQueueOrder_ordered e ih.2⟩

theorem lotList_nodup (d : Device) : (lotList d).Nodup := by
  have distinct : slots.Nodup := by decide
  refine distinct.filterMap fun i j e hi hj => ?_
  obtain ⟨l, -, rfl⟩ := Option.map_eq_some_iff.1 hi
  obtain ⟨m, -, same⟩ := Option.map_eq_some_iff.1 hj
  exact (congrArg Prod.fst same).symm

/-- Settles O6: the frames fold from the left, and the REVIEW lots are sorted by insertion. -/
theorem warmResetEndAndJoinClock : Obligations.WarmResetEndAndJoinClock := by
  refine ⟨fun s warm none => ⟨fun joined => ⟨_, rfl, ?_⟩, fun config => ?_⟩, fun s joined notPowerOn => ?_,
    fun s before c warm waits frame => ?_, fun d => ⟨reviewLots d, rfl, fun i l => ?_, ?_, ?_⟩⟩
  · rw [exec_warmResetEnd_of_warm warm, none, warmOver_of_none none, resumeBlocks]
    dsimp only
    rw [joined]
    rfl
  · rw [exec_warmResetEnd_of_warm warm, none, warmOver_of_none none, resumeBlocks]
    dsimp only
    rw [config]
    rfl
  · show execJoinClockMinute s = _
    rw [execJoinClockMinute, if_pos ⟨joined, notPowerOn⟩]
    rfl
  · refine ⟨_, exec_warmResetEnd_of_warm warm, ?_⟩
    rw [exec_warmResetEnd_of_warm warm, waits, takeFrames_concat, exec_requestFrame frame]
    rfl
  · rw [reviewLots, (foldr_insertInQueueOrder _).1.mem_iff, List.mem_filter, mem_lotList]
    simp
  · exact (foldr_insertInQueueOrder _).1.nodup_iff.2 ((lotList_nodup d).filter _)
  · exact (foldr_insertInQueueOrder _).2

end Sys2Proof.Machine
end

section
/-! The requests of the cell terminal: refusals (O7), RESTART, waiting and failed frames (O10), STATUS and READ (O11),
RETRY and CLEAR_FAULT (O12), SET_GRADE (O13). -/

namespace Sys2Proof.Machine

/-! ## A request frame taken at once (R195, R197) -/

theorem exec_of_served {c : Instr} (h : isRequestFrame c = true) {s : State} (served : Served s.dev) :
    exec c s = .next (moved s (takenFrame c s.dev)) := by
  rw [exec_requestFrame h, onFrame_of_served served]

/-- In JOINED a request that goes to an owner is the owner's work, `act`. -/
theorem exec_of_serving {c : Instr} (h : isRequestFrame c = true) {s : State} (serving : Serving s.dev) {n : Nat}
    {act : Device → Device} (owner : ∀ d, takenFrame c d = joinedOnly n act d) :
    exec c s = .next (moved s (act s.dev)) := by
  rw [exec_of_served h serving.1, owner, joinedOnly_of_joined serving.2]

/-- In JOINED a request whose fields are checked is answered BAD_FIELD with the first that fails. -/
theorem exec_of_badField {c : Instr} (h : isRequestFrame c = true) {s : State} (serving : Serving s.dev) {n m : Nat}
    {checks : List (Nat × Bool)} {act : Device → Device}
    (owner : ∀ d, takenFrame c d = joinedOnly n (checkFields n checks act) d) (bad : firstBad checks = some m) :
    exec c s = .next (moved s (respond ⟨n, .badField, [BitVec.ofNat 8 m]⟩ s.dev)) := by
  rw [exec_of_serving h serving owner, checkFields_of_some bad]

/-- In JOINED a request whose fields pass is the owner's work. -/
theorem exec_of_checked {c : Instr} (h : isRequestFrame c = true) {s : State} (serving : Serving s.dev) {n : Nat}
    {checks : List (Nat × Bool)} {act : Device → Device}
    (owner : ∀ d, takenFrame c d = joinedOnly n (checkFields n checks act) d) (good : firstBad checks = none) :
    exec c s = .next (moved s (act s.dev)) := by
  rw [exec_of_serving h serving owner, checkFields_of_none good]

/-- Every request with an owner is `joinedOnly` with its own code. -/
theorem takenFrame_owned {c : Instr} {n : Nat} (h : ownedRequest c = some n) :
    isRequestFrame c = true ∧ ∃ act, ∀ d, takenFrame c d = joinedOnly n act d := by
  cases c with
  | restart | read | retry | admitLot | withdraw | dispose | placeHold | placeFloorHold | liftFloor | override
  | clearSticky | clearFault | setGrade | collect | disposeRelease =>
    obtain rfl := Option.some.inj h
    exact ⟨rfl, _, fun _ => rfl⟩
  | _ => cases h

theorem exec_of_notReady {c : Instr} {n : Nat} {s : State} (owned : ownedRequest c = some n) (served : Served s.dev)
    (config : s.dev.ctp.device = .config) : exec c s = .next (moved s (respond ⟨n, .notReady, []⟩ s.dev)) := by
  obtain ⟨frame, act, owner⟩ := takenFrame_owned owned
  rw [exec_of_served frame served, owner, joinedOnly_of_config config]

/-! ## Fields at fault (R196) -/

theorem inRange_eq_false {lo hi n : Nat} (h : n < lo ∨ hi < n) : inRange lo hi n = false := by
  rw [inRange_eq_decide]
  exact decide_eq_false (by omega)

theorem inRange_eq_true {lo hi n : Nat} (low : lo ≤ n) (high : n ≤ hi) : inRange lo hi n = true := by
  rw [inRange_eq_decide]
  exact decide_eq_true ⟨low, high⟩

theorem slotOfId_some {d : Device} {id : Nat} {i : Fin 8} (h : slotOfId d id = some i) :
    ∃ l, lotAt d i = some l ∧ l.id = id := by
  obtain ⟨l, hl, same⟩ := findLot_some h
  exact ⟨l, hl, by simpa using same⟩

theorem slotOfId_eq_none {d : Device} {id : Nat} (h : ∀ i l, lotAt d i = some l → l.id ≠ id) :
    slotOfId d id = none := by
  cases hs : slotOfId d id with
  | none => rfl
  | some i =>
    obtain ⟨l, hl, same⟩ := slotOfId_some hs
    exact absurd same (h i l hl)

/-- R163, checks 3 and 4: what a DISPOSE of nothing is answered. -/
theorem exec_dispose_notFound {id reason flags detail tag x : Nat} {s : State} (serving : Serving s.dev)
    (good : firstBad (disposeChecks id reason flags detail tag x) = none)
    (nothing : (∀ i l, lotAt s.dev i = some l → l.id ≠ id) ∨ ∃ i l k, slotOfId s.dev id = some i ∧
      lotAt s.dev i = some l ∧ disposeKey reason detail tag = some k ∧ ∀ e ∈ l.holds, e.key ≠ k) :
    exec (.dispose id reason flags detail tag x) s = .next (moved s (respond ⟨9, .notFound, []⟩ s.dev)) := by
  rw [exec_of_checked rfl serving (fun _ => rfl) good]
  rcases nothing with noLot | ⟨i, l, k, hi, hl, key, absent⟩
  · rw [slotOfId_eq_none noLot]
    rfl
  · have missing : (!keyPresent l (some k)) = true := by
      simpa [keyPresent, List.any_eq_false] using absent
    rw [hi, key]
    dsimp only
    rw [hl, Option.any_some, if_pos missing]
    rfl

/-- Settles O7: a request without its owner, and a request whose checks fail at the field named. -/
theorem requestsRefusedAtOnce : Obligations.RequestsRefusedAtOnce := by
  refine ⟨fun c n s => exec_of_notReady, fun s serving => ⟨fun id note h => ?_, fun id note low high h => ?_,
    fun p r h => ?_, fun p r low high h => ?_, fun t h => ⟨?_, fun o ho => ?_⟩, fun o t h => ?_, fun h bad => ?_,
    fun n h => ⟨?_, fun x => ?_⟩, fun n x low high h => ?_, fun id reason flags detail tag x => ⟨fun n bad => ?_,
    fun good nothing => exec_dispose_notFound serving good nothing⟩⟩⟩
  · exact exec_of_badField rfl serving (fun _ => rfl) (by rw [inRange_eq_false (by omega)]; rfl)
  · exact exec_of_badField rfl serving (fun _ => rfl)
      (by rw [inRange_eq_true low high, decide_eq_false (by omega)]; rfl)
  · exact exec_of_badField rfl serving (fun _ => rfl) (by rw [isProgram, inRange_eq_false (by omega)]; rfl)
  · exact exec_of_badField rfl serving (fun _ => rfl)
      (by rw [isProgram, inRange_eq_true low high, inRange_eq_false h]; rfl)
  · exact exec_of_badField rfl serving (fun _ => rfl) (by rw [inRange_eq_false (by omega)]; rfl)
  · exact exec_of_badField rfl serving (fun _ => rfl)
      (by rw [decide_eq_true ho, inRange_eq_false (by omega)]; rfl)
  · exact exec_of_badField rfl serving (fun _ => rfl) (by rw [decide_eq_false (by omega)]; rfl)
  · exact exec_of_badField rfl serving (fun _ => rfl) (by rw [isHandler, inRange_eq_false (by omega)]; rfl)
  · exact exec_of_badField rfl serving (fun _ => rfl) (by rw [inRange_eq_false (by omega)]; rfl)
  · exact exec_of_badField rfl serving (fun _ => rfl) (by rw [inRange_eq_false (by omega)]; rfl)
  · exact exec_of_badField rfl serving (fun _ => rfl)
      (by rw [inRange_eq_true low high, inRange_eq_false (by omega)]; rfl)
  · exact exec_of_badField rfl serving (fun _ => rfl) bad

/-! ## Frames that wait, fail or are lost (R194, R195, R200) -/

theorem onFrame_of_waiting {d : Device}
    (h : d.ctp.hold = .warm ∨ (d.ctp.hold = .running ∧ d.ctp.restartPending = true)) (c : Instr)
    (taken : Device → Device) : onFrame c taken d = waitRequest c d := by
  rcases h with h | ⟨h, pending⟩
  · simp [onFrame, h]
  · simp [onFrame, h, pending]

/-- Settles O10: `onFrame` and `waitRequest`, branch by branch. -/
theorem restartWaitingAndBadFrames : Obligations.RestartWaitingAndBadFrames := by
  refine ⟨fun s serving => ?_, ⟨fun c s frame waits => ?_, fun s notPowerOn => ?_⟩,
    fun crcPassed code s served => exec_of_served rfl served⟩
  · have taken : exec .restart s = _ := exec_of_serving rfl serving fun _ => rfl
    exact taken
  · rw [exec_requestFrame frame, onFrame_of_waiting waits]
    rfl
  · show execRequestFrameDiscarded s = _
    rw [execRequestFrameDiscarded, if_neg notPowerOn]
    rfl

/-! ## READ (R202 to R204) -/

/-- One slot of a READ of LOTS. -/
def seeSlot (first count : Nat) (d : Device) (i : Fin 8) : Device :=
  if inRange first (first + count - 1) i.val then modifyLot i (fun l => { l with unseen := false }) d else d

/-- A READ of LOTS changes nothing but lot records. -/
theorem foldl_seeSlot_rest (first count : Nat) (sl : List (Fin 8)) (d : Device) : sl.foldl (seeSlot first count) d =
    { d with lmg := { d.lmg with lots := (sl.foldl (seeSlot first count) d).lmg.lots } } := by
  induction sl generalizing d with
  | nil => rfl
  | cons i sl ih =>
    have one : seeSlot first count d i = { d with lmg := { d.lmg with lots := (seeSlot first count d i).lmg.lots } } := by
      unfold seeSlot
      split <;> rfl
    rw [List.foldl_cons]
    refine (ih _).trans ?_
    generalize (sl.foldl (seeSlot first count) (seeSlot first count d i)).lmg.lots = lots
    rw [one]

/-- What a READ of LOTS leaves of a slot. -/
def seen (first count : Nat) (i : Fin 8) (l : Option Lot) : Option Lot :=
  if first ≤ i.val ∧ i.val < first + count then l.map fun l => { l with unseen := false } else l

theorem lotAt_seeSlot (first count : Nat) (pos : 1 ≤ count) (d : Device) (i j : Fin 8) :
    lotAt (seeSlot first count d i) j = if i = j then seen first count j (lotAt d j) else lotAt d j := by
  have spell : (first ≤ i.val ∧ i.val ≤ first + count - 1) ↔ (first ≤ i.val ∧ i.val < first + count) := by omega
  simp only [seeSlot, inRange_eq_decide, decide_eq_true_eq, spell]
  by_cases same : i = j
  · subst same
    by_cases read : first ≤ i.val ∧ i.val < first + count
    · simp [seen, read]
    · simp [seen, read]
  · by_cases read : first ≤ i.val ∧ i.val < first + count
    · simp [read, same, lotAt_modifyLot]
    · simp [read, same]

theorem lotAt_foldl_seeSlot (first count : Nat) (pos : 1 ≤ count) (sl : List (Fin 8)) (distinct : sl.Nodup)
    (d : Device) (j : Fin 8) : lotAt (sl.foldl (seeSlot first count) d) j =
      if j ∈ sl then seen first count j (lotAt d j) else lotAt d j := by
  induction sl generalizing d with
  | nil => simp
  | cons i sl ih =>
    obtain ⟨fresh, distinct⟩ := List.nodup_cons.1 distinct
    rw [List.foldl_cons, ih distinct, lotAt_seeSlot first count pos]
    by_cases same : i = j
    · subst same
      simp [fresh]
    · simp [same, Ne.symm same]

theorem clearUnseen_eq (first count : Nat) (pos : 1 ≤ count) (d : Device) : clearUnseen first count d =
    { d with lmg := { d.lmg with lots := Vector.ofFn fun i : Fin 8 => seen first count i (lotAt d i) } } := by
  have same : (clearUnseen first count d).lmg.lots = Vector.ofFn fun i : Fin 8 => seen first count i (lotAt d i) := by
    refine Vector.ext fun i hi => ?_
    have slot := lotAt_foldl_seeSlot first count pos slots (by decide) d ⟨i, hi⟩
    rw [if_pos (mem_slots _)] at slot
    rw [Vector.getElem_ofFn]
    exact slot
  rw [← same]
  exact foldl_seeSlot_rest first count slots d

/-- Settles O11: READ's refusals in the order of `readRequest`. -/
theorem statusRequestAndRead : Obligations.StatusRequestAndRead := by
  refine ⟨fun s served => exec_of_served rfl served, fun table slot first count t s serving ht slotOk pos most low high =>
    ?_, fun table slot first count s serving => ⟨fun ht => ?_, fun t ht => ⟨fun reads bad => ?_, fun slotOk bad => ?_,
    fun slotOk pos most out => ?_⟩⟩⟩
  all_goals rw [exec_of_serving rfl serving fun _ => rfl, ht]; dsimp only
  · rw [if_neg (by rintro ⟨reads, bad⟩; exact absurd (slotOk reads) (by omega)), if_neg (by omega), if_neg (by omega)]
    by_cases lots : t = .lots
    · rw [if_pos lots, if_pos lots, clearUnseen_eq first count pos]
      rfl
    · rw [if_neg lots, if_neg lots]
      rfl
  · rfl
  · rw [if_pos ⟨reads, bad⟩]
    rfl
  · rw [if_neg (by rintro ⟨reads, bad⟩; exact absurd (slotOk reads) (by omega)), if_pos bad]
    rfl
  · rw [if_neg (by rintro ⟨reads, bad⟩; exact absurd (slotOk reads) (by omega)), if_neg (by omega), if_pos (by omega)]
    rfl

/-! ## RETRY and CLEAR_FAULT (R205, R206), SET_GRADE (R109) -/

/-- Settles O12: the two requests as they stand. -/
theorem retryAndClearFault : Obligations.RetryAndClearFault := by
  refine ⟨fun s serving => ?_, fun b s serving => ⟨fun n hn => ?_, fun hn => ?_⟩⟩
  · have taken : exec .retry s = _ := exec_of_serving rfl serving fun _ => rfl
    exact taken
  all_goals rw [exec_of_serving rfl serving fun _ => rfl, hn]; rfl

/-- Settles O13: the three ways of `setGradeRequest`. -/
theorem setGradeRestoresGradeA : Obligations.SetGradeRestoresGradeA := by
  intro h s serving low high
  have taken : exec (.setGrade h) s = _ := exec_of_checked rfl serving (fun _ => rfl)
    (by rw [isHandler, inRange_eq_true low high]; rfl)
  rw [taken]
  dsimp only
  refine ⟨fun other => ?_, fun own => ⟨_, rfl, fun notB notC => ?_, fun changed notLeaving => ?_, fun changed leaving => ?_⟩⟩
  · rw [if_neg other]
    rfl
  · rw [if_pos own, if_neg (not_or.2 ⟨notB, notC⟩)]
    rfl
  · rw [if_pos own, if_pos changed, if_neg (show (setTpm _ s.dev).hpt.presence ≠ .leaving from notLeaving)]
    rfl
  · rw [if_pos own, if_pos changed, if_pos (show (setTpm _ s.dev).hpt.presence = .leaving from leaving), reparkLeaving,
      reportGrade, entryAt_setEntry _ _ (by rw [isHandler, inRange_eq_true low high])]
    rfl

end Sys2Proof.Machine
end

section
/-! Hold requests and the way into HELD, WITHDRAW, CLEAR_STICKY and PLACE_HOLD (O16); how a lot continues, is scrapped,
re-stages and drains, and DISPOSE (O17). -/

namespace Sys2Proof.Machine

/-! ## Hold requests (R9, R161) -/

theorem holdOutcome_of_present {l : Lot} {key : HoldKey} (h : ∃ e ∈ l.holds, e.key = key) :
    holdOutcome l key = .repeated := by
  obtain ⟨e, he, same⟩ := h
  exact if_pos (List.any_eq_true.2 ⟨e, he, by rw [same, beq_self_eq_true]⟩)

theorem holdOutcome_of_room {l : Lot} {key : HoldKey} (h : ∀ e ∈ l.holds, e.key ≠ key) (room : l.holds.length < 6) :
    holdOutcome l key = .stored := by
  rw [holdOutcome, if_neg (by simpa using h), if_pos room]

theorem holdOutcome_of_full {l : Lot} {key : HoldKey} (h : ∀ e ∈ l.holds, e.key ≠ key) (full : 6 ≤ l.holds.length) :
    holdOutcome l key = .overflow := by
  rw [holdOutcome, if_neg (by simpa using h), if_neg (by omega)]

section
variable {i : Fin 8} {l : Lot} {d : Device} {key : HoldKey} {u : Bool}

theorem enterHeld_of_rest (hl : lotAt d i = some l) (h : l.state = .held ∨ (l.holds = [] ∧ l.overflow = false)) :
    enterHeld i d = d := by
  unfold enterHeld
  rw [hl]
  refine if_neg fun ⟨notHeld, holds⟩ => ?_
  rcases h with held | clear
  · exact notHeld held
  · rw [(holdsLot_eq_false_iff l).2 clear] at holds
    cases holds

theorem enterHeld_of_held (hl : lotAt d i = some l) (notHeld : l.state ≠ .held)
    (h : l.holds ≠ [] ∨ l.overflow = true) : enterHeld i d = settle (putLot i (some (heldLot l)) d) := by
  unfold enterHeld
  rw [hl]
  exact if_pos ⟨notHeld, (holdsLot_iff l).2 h⟩

theorem storeHold_eq (hl : lotAt d i = some l) : storeHold i key u d =
    if holdOutcome l key = .overflow then
      raise .accounting .corrected .holdSetFull i.val (putLot i (some (applyHold (now d) key u l)) d)
    else putLot i (some (applyHold (now d) key u l)) d := by
  unfold storeHold
  rw [hl]

theorem holdRequest_of_present (hl : lotAt d i = some l) (h : ∃ e ∈ l.holds, e.key = key) :
    holdRequest i key u d =
      enterHeld i (putLot i (some { l with holds := l.holds.map (repeatEntry key u) }) d) := by
  rw [holdRequest, storeHold_eq hl, applyHold, holdOutcome_of_present h, if_neg (by decide)]

theorem holdRequest_of_room (hl : lotAt d i = some l) (h : ∀ e ∈ l.holds, e.key ≠ key) (room : l.holds.length < 6) :
    holdRequest i key u d = enterHeld i (putLot i (some { l with
      holds := l.holds ++ [⟨key, l.cur, now d, 1, u && isRemote key⟩]
      holdCount := min 255 (l.holdCount + 1) }) d) := by
  rw [holdRequest, storeHold_eq hl, applyHold, holdOutcome_of_room h room, if_neg (by decide)]
  rfl

theorem holdRequest_of_full (hl : lotAt d i = some l) (h : ∀ e ∈ l.holds, e.key ≠ key) (full : 6 ≤ l.holds.length) :
    holdRequest i key u d = enterHeld i (raise .accounting .corrected .holdSetFull i.val
      (putLot i (some { l with overflow := true }) d)) := by
  rw [holdRequest, storeHold_eq hl, applyHold, holdOutcome_of_full h full, if_pos rfl]

end

theorem isRemote_iff (key : HoldKey) : isRemote key = true ↔ ∃ o t, key = .remote o t := by
  cases key with
  | remote o t => simp [isRemote]
  | _ => simp [isRemote]

/-! ## WITHDRAW, CLEAR_STICKY, PLACE_HOLD (R18, R75, R162) -/

theorem withdrawable_iff (l : Lot) : withdrawable l = true ↔
    l.opened = false ∧ (l.state = .queued ∨ l.state = .staging ∨ l.state = .held) := by
  simp [withdrawable, or_assoc]

theorem exec_withdraw {id : Nat} {i : Fin 8} {l : Lot} {s : State} (serving : Serving s.dev)
    (slot : slotOfId s.dev id = some i) (hl : lotAt s.dev i = some l) :
    exec (.withdraw id) s = .next (moved s (if withdrawable l then respond ⟨8, .ok, []⟩ (settle (putLot i none s.dev))
      else respond ⟨8, .badState, []⟩ s.dev)) := by
  have taken : exec (.withdraw id) s = _ := exec_of_serving rfl serving fun _ => rfl
  rw [taken, slot]
  dsimp only
  rw [hl]
  rfl

theorem exec_placeHold {id note : Nat} {i : Fin 8} {l : Lot} {s : State} (serving : Serving s.dev)
    (low : 1 ≤ id) (high : id ≤ 4294967295) (noteOk : note ≤ 255)
    (slot : slotOfId s.dev id = some i) (hl : lotAt s.dev i = some l) :
    exec (.placeHold id note) s = .next (moved s (respond
      ⟨10, .ok, [BitVec.ofNat 8 (outcomeNumber (holdOutcome l (.operator note)))]⟩
      (settle (holdRequest i (.operator note) false s.dev)))) := by
  rw [exec_of_checked rfl serving (fun _ => rfl) (by rw [inRange_eq_true low high, decide_eq_true noteOk]; rfl), slot]
  dsimp only
  rw [hl]
  dsimp only
  rw [byte1_eq]
  rfl

theorem all_ne_iff (l : Lot) (key : HoldKey) :
    l.holds.all (fun e => e.key != key) = true ↔ ∀ e ∈ l.holds, e.key ≠ key := by simp

theorem any_eq_iff (l : Lot) (key : HoldKey) :
    l.holds.any (fun e => e.key == key) = true ↔ ∃ e ∈ l.holds, e.key = key := by simp

/-- Settles O16: each request and each operation by its branches. -/
theorem withdrawClearStickyAndPlaceHold : Obligations.WithdrawClearStickyAndPlaceHold := by
  refine ⟨⟨fun id s serving => ⟨fun noLot => ?_, fun i l slot hl closed state => ?_, fun i l slot hl busy => ?_⟩,
    fun id s serving => ⟨fun i l slot hl => ?_, fun noLot => ?_⟩⟩,
    fun id note s serving low high noteOk => ⟨fun noLot => ?_, fun i l slot hl => ⟨fun new room => ⟨_, rfl, ?_⟩,
      fun present => ⟨_, rfl, ?_⟩, fun new full => ?_⟩⟩,
    fun i l d hl => ⟨enterHeld_of_rest hl, fun notHeld h => ⟨resumeFor l, ?_, ?_, ?_, fun k state step => ?_, ?_, ?_,
      enterHeld_of_held hl notHeld h⟩⟩,
    fun i l key u d hl => ⟨isRemote key, isRemote_iff key, holdRequest_of_present hl, holdRequest_of_room hl,
      holdRequest_of_full hl⟩⟩
  · rw [exec_of_serving rfl serving fun _ => rfl, slotOfId_eq_none noLot]
    rfl
  · rw [exec_withdraw serving slot hl, if_pos ((withdrawable_iff l).2 ⟨closed, state⟩)]
    rfl
  · rw [exec_withdraw serving slot hl, if_neg]
    rw [withdrawable_iff]
    rintro ⟨closed, state⟩
    rcases busy with opened | state' | state' | state' | state'
    · rw [closed] at opened
      cases opened
    all_goals
      rw [state'] at state
      simp at state
  · rw [exec_of_serving rfl serving fun _ => rfl, slot]
    dsimp only
    rw [modifyLot_some _ hl]
    rfl
  · rw [exec_of_serving rfl serving fun _ => rfl, slotOfId_eq_none noLot]
    rfl
  · rw [exec_of_checked rfl serving (fun _ => rfl) (by rw [inRange_eq_true low high, decide_eq_true noteOk]; rfl),
      slotOfId_eq_none noLot]
    rfl
  · rw [all_ne_iff] at new
    rw [exec_placeHold serving low high noteOk slot hl, holdOutcome_of_room new room,
      holdRequest_of_room hl new room]
    rfl
  · rw [any_eq_iff] at present
    rw [exec_placeHold serving low high noteOk slot hl, holdOutcome_of_present present,
      holdRequest_of_present hl present]
    rfl
  · rw [all_ne_iff] at new
    rw [exec_placeHold serving low high noteOk slot hl, holdOutcome_of_full new full,
      holdRequest_of_full hl new full]
    rfl
  · exact fun state => by simp only [resumeFor, state]
  · exact fun state => by simp only [resumeFor, state]
  · exact fun state => by simp only [resumeFor, state]
  · simp only [resumeFor, state, (passOf_eq_some_iff l k).2 step, Option.getD_some]
  · exact fun state => by simp only [resumeFor, state]
  · exact fun state => by simp only [resumeFor, state]

/-! ## Scrap, drain and re-stage (R14, R19, R37) -/

section
variable {i : Fin 8} {l : Lot} {d : Device}

theorem scrapLot_of_closed (hl : lotAt d i = some l) (closed : l.opened = false) :
    scrapLot i d = settle (putLot i none d) := by
  unfold scrapLot
  rw [hl]
  dsimp only
  rw [closed]
  rfl

theorem scrapLot_of_opened (hl : lotAt d i = some l) (opened : l.opened = true) :
    scrapLot i d = settle (putLot i none (setTpt (fun t => { t with drain := none, silence := none }) (haltIfArmed l d))) := by
  unfold scrapLot
  rw [hl]
  dsimp only
  rw [if_pos opened]
  rfl

theorem armNames_iff (d : Device) (l : Lot) : armNames d l = true ↔
    d.tpt.arm.state ≠ .unarmed ∧ d.tpt.arm.lot = l.id ∧ d.tpt.arm.insertion = l.cur := by
  simp [armNames, and_assoc]

theorem endDrain_of_none (h : openLot d = none) : endDrain d =
    { d with tpt := { d.tpt with drain := none, arm := ⟨.unarmed, 0, 0, 0, 0⟩ } } := by
  unfold endDrain
  dsimp only
  rw [show openLot (setTpt (fun t => { t with drain := none }) (clearArm d)) = none from h]
  rfl

theorem endDrain_of_open (h : openLot d = some (i, l)) : endDrain d =
    closeInsertion i { d with tpt := { d.tpt with drain := none, arm := ⟨.unarmed, 0, 0, 0, 0⟩ } } := by
  unfold endDrain
  dsimp only
  rw [show openLot (setTpt (fun t => { t with drain := none }) (clearArm d)) = some (i, l) from h]
  rfl

/-! ## Continuing (R11) -/

theorem continueIfClear_of_holds (hl : lotAt d i = some l) (h : holdsLot l = true) : continueIfClear i d = d := by
  unfold continueIfClear
  rw [hl, Option.any_some, h]
  exact if_neg (by simp)

theorem continueIfClear_of_clear (hl : lotAt d i = some l) (held : l.state = .held) (h : holdsLot l = false) :
    continueIfClear i d = lotContinues i d := by
  unfold continueIfClear
  rw [hl, Option.any_some, h, held]
  rfl

/-- R11: the close-on-continue mark closes the pass. -/
def Closes (l : Lot) (r : ResumeStep) : Prop :=
  l.closeOnContinue = true ∧ (∃ k, l.step = some (.pass k)) ∧ (r = .running ∨ (∃ k, r = .retest k) ∨ r = .staging)

theorem closes_iff (l : Lot) (r : ResumeStep) :
    Closes l r ↔ l.closeOnContinue = true ∧ (passOf l).isSome = true ∧ resumesPass r = true := by
  have steps : resumesPass r = true ↔ r = .running ∨ (∃ k, r = .retest k) ∨ r = .staging := by
    cases r <;> simp [resumesPass]
  have pass : (passOf l).isSome = true ↔ ∃ k, l.step = some (.pass k) := by
    simp only [Option.isSome_iff_exists, passOf_eq_some_iff]
  rw [steps, pass, Closes]

theorem lotContinues_of_closes {r : ResumeStep} (hl : lotAt d i = some l) (hr : l.resume = some r) (h : Closes l r) :
    lotContinues i d = enterClosing i d := by
  unfold lotContinues
  rw [hl]
  dsimp only
  rw [hr]
  exact if_pos ((closes_iff l r).1 h)

/-- R11: the way the resume step `r` leads, no close-on-continue mark in the way. -/
def resumeAt (i : Fin 8) (l : Lot) (d : Device) : ResumeStep → Device
  | .queued => enterQueued i (clearCloseMark i d)
  | .review => settle (enterReview i (clearCloseMark i d))
  | .closing => settle (modifyLot i (fun l => { l with state := .closing, resume := none }) d)
  | .staging => restage i d
  | .running => continuePass i l 0 d
  | .retest k => continuePass i l k d

theorem lotContinues_of_resume {r : ResumeStep} (hl : lotAt d i = some l) (hr : l.resume = some r) (h : ¬ Closes l r) :
    lotContinues i d = resumeAt i l d r := by
  unfold lotContinues
  rw [hl]
  dsimp only
  rw [hr, Option.getD_some]
  rw [if_neg ((closes_iff l r).not.1 h)]
  cases r <;> rfl

theorem passNeedsMet_iff (d : Device) (l : Lot) : passNeedsMet d l = true ↔
    d.tpt.arm.state = .armed ∧ d.tpt.arm.lot = l.id ∧ d.tpt.arm.insertion = l.cur ∧ d.hpt.presence = .present ∧
      d.hpt.handler = d.hpt.passHandler ∧ d.hpt.kit = l.kit ∧ d.hpt.soaked = some (currentEntry l).temp := by
  simp only [passNeedsMet, soakedAt, Bool.and_eq_true, armedFor_iff, beq_iff_eq]
  tauto

theorem continuePass_of_unready (k : Nat) (h : ¬ passNeedsMet d l = true) : continuePass i l k d = restage i d :=
  if_neg h

theorem continuePass_of_ready (k : Nat) (h : passNeedsMet d l = true) :
    continuePass i l k d = settle (enterPass i l k d) :=
  if_pos h

theorem lotContinues_queued (hl : lotAt d i = some l) (hr : l.resume = some .queued) : lotContinues i d =
    settle (if l.cls = 0 then
        preempt (putLot i (some { l with state := .queued, resume := none, closeOnContinue := false }) d)
      else putLot i (some { l with state := .queued, resume := none, closeOnContinue := false }) d) := by
  rw [lotContinues_of_resume hl hr (by simp [Closes]), resumeAt, clearCloseMark, modifyLot_some _ hl,
    enterQueued_eq (lotAt_putLot_same ..), putLot_putLot]

theorem lotContinues_review (hl : lotAt d i = some l) (hr : l.resume = some .review) : lotContinues i d =
    settle (offerReview i
      (putLot i (some { l with state := .review, resume := none, closeOnContinue := false }) d)) := by
  rw [lotContinues_of_resume hl hr (by simp [Closes]), resumeAt, clearCloseMark, modifyLot_some _ hl,
    enterReview_eq (lotAt_putLot_same ..), putLot_putLot]

theorem lotContinues_closing (hl : lotAt d i = some l) (hr : l.resume = some .closing) : lotContinues i d =
    settle (putLot i (some { l with state := .closing, resume := none }) d) := by
  rw [lotContinues_of_resume hl hr (by simp [Closes]), resumeAt, modifyLot_some _ hl]

/-- R11: RUNNING resumes pass 0 and RETEST k pass k. -/
theorem resumeAt_pass {r : ResumeStep} {k : Nat} (h : (r = .running ∧ k = 0) ∨ r = .retest k) :
    resumeAt i l d r = continuePass i l k d := by
  rcases h with ⟨rfl, rfl⟩ | rfl <;> rfl

end

/-! ## DISPOSE (R163 to R165) -/

theorem disposeLot_some (k : HoldKey) (close : Bool) (l : Lot) : disposeLot (some k) close l = { l with
    holds := l.holds.filter (fun e => e.key != k), closeOnContinue := l.closeOnContinue || close } := by
  cases close <;> simp [disposeLot]

theorem disposeLot_none (close : Bool) (l : Lot) : disposeLot none close l = { l with
    overflow := false, closeOnContinue := l.closeOnContinue || close } := by
  cases close <;> simp [disposeLot]

/-- R163: the checks that DISPOSE makes at the lot, in their order, and its effect (R164, R165). -/
theorem exec_dispose {id reason flags detail tag disposition : Nat} {i : Fin 8} {l : Lot} {s : State}
    (serving : Serving s.dev) (good : firstBad (disposeChecks id reason flags detail tag disposition) = none)
    (slot : slotOfId s.dev id = some i) (hl : lotAt s.dev i = some l) :
    exec (.dispose id reason flags detail tag disposition) s = .next (moved s (
      if keyPresent l (disposeKey reason detail tag) = false then respond ⟨9, .notFound, []⟩ s.dev
      else if disposition = 3 then respond ⟨9, .ok, []⟩ (scrapLot i s.dev)
      else if keyRefused l (disposeKey reason detail tag) = true then respond ⟨9, .badState, []⟩ s.dev
      else respond ⟨9, .ok, []⟩ (settle (continueIfClear i
        (putLot i (some (disposeLot (disposeKey reason detail tag) (disposition == 2) l)) s.dev))))) := by
  rw [exec_of_checked rfl serving (fun _ => rfl) good, slot]
  dsimp only
  rw [hl, Option.any_some, Option.any_some, modifyLot_some _ hl]
  simp only [Bool.not_eq_true', reply]

/-- R163, R165: the fields of a DISPOSE on the overflow mark. -/
theorem disposeChecks_overflow {id disposition : Nat} (low : 1 ≤ id) (high : id ≤ 4294967295) (least : 1 ≤ disposition)
    (most : disposition ≤ 3) : firstBad (disposeChecks id 10 0 0 0 disposition) = none := by
  rw [disposeChecks, inRange_eq_true low high, inRange_eq_true least most]
  rfl

theorem disposeOnEntry (id reason flags detail tag disposition : Nat) (i : Fin 8) (l : Lot) (k : HoldKey) (s : State)
    (serving : Serving s.dev) (good : firstBad (disposeChecks id reason flags detail tag disposition) = none)
    (key : disposeKey reason detail tag = some k) (slot : slotOfId s.dev id = some i) (hl : lotAt s.dev i = some l)
    (present : l.holds.any (fun e => e.key == k) = true) :
    (disposition = 3 → exec (.dispose id reason flags detail tag disposition) s =
      .next (moved s (respond ⟨9, .ok, []⟩ (scrapLot i s.dev)))) ∧
    (disposition ≠ 3 → isRemote k = true → exec (.dispose id reason flags detail tag disposition) s =
      .next (moved s (respond ⟨9, .badState, []⟩ s.dev))) ∧
    (disposition ≠ 3 → isRemote k = false → exec (.dispose id reason flags detail tag disposition) s =
      .next (moved s (respond ⟨9, .ok, []⟩ (settle (continueIfClear i (putLot i (some { l with
        holds := l.holds.filter (fun e => e.key != k)
        closeOnContinue := l.closeOnContinue || disposition == 2 }) s.dev)))))) := by
  have found : keyPresent l (some k) ≠ false := by simpa [keyPresent] using present
  rw [exec_dispose serving good slot hl, key, if_neg found, disposeLot_some]
  refine ⟨fun scrap => ?_, fun notScrap remote => ?_, fun notScrap own => ?_⟩
  · rw [if_pos scrap]
  · rw [if_neg notScrap, if_pos (show keyRefused l (some k) = true from remote)]
  · rw [if_neg notScrap, if_neg (show ¬ keyRefused l (some k) = true from Bool.not_eq_true _ ▸ own)]

theorem disposeOnOverflow (id disposition : Nat) (i : Fin 8) (l : Lot) (s : State) (serving : Serving s.dev)
    (low : 1 ≤ id) (high : id ≤ 4294967295) (least : 1 ≤ disposition) (most : disposition ≤ 3)
    (slot : slotOfId s.dev id = some i) (hl : lotAt s.dev i = some l) :
    (l.overflow = false → exec (.dispose id 10 0 0 0 disposition) s =
      .next (moved s (respond ⟨9, .notFound, []⟩ s.dev))) ∧
    (l.overflow = true → disposition = 3 → exec (.dispose id 10 0 0 0 disposition) s =
      .next (moved s (respond ⟨9, .ok, []⟩ (scrapLot i s.dev)))) ∧
    (l.overflow = true → disposition ≠ 3 → 6 ≤ l.holds.length → exec (.dispose id 10 0 0 0 disposition) s =
      .next (moved s (respond ⟨9, .badState, []⟩ s.dev))) ∧
    (l.overflow = true → disposition ≠ 3 → l.holds.length < 6 → exec (.dispose id 10 0 0 0 disposition) s =
      .next (moved s (respond ⟨9, .ok, []⟩ (settle (continueIfClear i (putLot i (some { l with
        overflow := false, closeOnContinue := l.closeOnContinue || disposition == 2 }) s.dev)))))) := by
  have none : disposeKey 10 0 0 = none := rfl
  have present (marked : l.overflow = true) : keyPresent l Option.none ≠ false := by simpa [keyPresent] using marked
  rw [exec_dispose serving (disposeChecks_overflow low high least most) slot hl, none, disposeLot_none]
  refine ⟨fun unmarked => ?_, fun marked scrap => ?_, fun marked notScrap full => ?_, fun marked notScrap room => ?_⟩
  · rw [if_pos (show keyPresent l Option.none = false from unmarked)]
  · rw [if_neg (present marked), if_pos scrap]
  · rw [if_neg (present marked), if_neg notScrap, 
      if_pos (show keyRefused l Option.none = true from decide_eq_true full)]
  · rw [if_neg (present marked), if_neg notScrap, if_neg (by simpa [keyRefused] using room)]

/-- Settles O17: DISPOSE by its checks in their order, and each move of a lot by its branches. -/
theorem disposeResumesClosesOrScraps : Obligations.DisposeResumesClosesOrScraps := by
  refine ⟨fun id reason flags detail tag disposition i l k s serving good key slot hl present => ?_,
    fun id disposition i l s serving low high least most slot hl => ?_, fun i l d hl => ⟨_, rfl,
      scrapLot_of_closed hl, fun opened notArmed => ?_, fun opened armed up => ?_, fun opened armed notUp => ?_⟩,
    fun i l r d hl hr => ⟨Closes l r, _, _, Iff.rfl, passNeedsMet_iff d l, rfl, lotContinues_of_closes hl hr, ?_, ?_, ?_,
      fun goesOn => ⟨?_, fun k pass => ⟨_, rfl, fun unready => ?_, fun ready started => ?_, fun ready new => ?_⟩⟩⟩,
    fun i l d hl => ⟨_, _, rfl, rfl, fun notDrain => ?_, fun drain => ?_, enterClosing_eq hl⟩,
    fun l d => ⟨_, armNames_iff d l, fun up names => ?_, fun not => ?_⟩,
    fun d => ⟨_, rfl, endDrain_of_none, fun i l => endDrain_of_open⟩⟩
  · obtain ⟨scrap, refused, goesOn⟩ :=
      disposeOnEntry id reason flags detail tag disposition i l k s serving good key slot hl present
    refine ⟨scrap, refused, fun notScrap own => ⟨_, rfl, fun holds => ?_, fun noHolds unmarked held => ?_⟩⟩
    · rw [goesOn notScrap own, continueIfClear_of_holds (lotAt_putLot_same ..)]
      exact (holdsLot_iff _).2 holds
    · rw [goesOn notScrap own, continueIfClear_of_clear (lotAt_putLot_same ..)]
      · exact held
      · exact (holdsLot_eq_false_iff _).2 ⟨noHolds, unmarked⟩
  · obtain ⟨unmarked, -, refused, goesOn⟩ :=
      disposeOnOverflow id disposition i l s serving low high least most slot hl
    obtain ⟨-, scrap, -⟩ :=
      disposeOnOverflow id 3 i l s serving low high (by decide) (by decide) slot hl
    refine ⟨unmarked, fun marked => scrap marked rfl, fun notScrap =>
      ⟨fun marked => refused marked (by omega), fun marked room => ⟨_, rfl, fun holds => ?_, fun noHolds held => ?_⟩⟩⟩
    · rw [goesOn marked (by omega) room, continueIfClear_of_holds (lotAt_putLot_same ..)]
      exact (holdsLot_iff _).2 (.inl holds)
    · rw [goesOn marked (by omega) room, continueIfClear_of_clear (lotAt_putLot_same ..)]
      · exact held
      · exact (holdsLot_eq_false_iff _).2 ⟨noHolds, rfl⟩
  · rw [scrapLot_of_opened hl opened, haltIfArmed, notArmed]
    rfl
  · rw [scrapLot_of_opened hl opened, haltIfArmed, armed, if_pos rfl, sendTesterIfUp, if_pos up]
    rfl
  · rw [scrapLot_of_opened hl opened, haltIfArmed, armed, if_pos rfl, sendTesterIfUp, if_neg notUp]
    rfl
  · rintro rfl
    have queued := lotContinues_queued hl hr
    exact ⟨_, rfl, queued⟩
  · rintro rfl
    have review := lotContinues_review hl hr
    exact review
  · rintro rfl
    exact lotContinues_closing hl hr
  · rintro rfl
    exact lotContinues_of_resume hl hr goesOn
  · rw [lotContinues_of_resume hl hr goesOn, resumeAt_pass pass, continuePass_of_unready k unready]
  · rw [lotContinues_of_resume hl hr goesOn, resumeAt_pass pass, continuePass_of_ready k ready,
      enterPass_of_started hl k started]
    rfl
  · rw [lotContinues_of_resume hl hr goesOn, resumeAt_pass pass, continuePass_of_ready k ready,
      enterPass_of_new hl k new]
    rfl
  · rw [restage_eq hl, if_neg notDrain]
    rfl
  · rw [restage_eq hl, if_pos drain, enterClosing_eq (lotAt_putLot_same ..), putLot_putLot]
    rfl
  · exact if_pos ⟨up, names⟩
  · exact if_neg fun ⟨up, names⟩ => not.elim (· up) (· names)

end Sys2Proof.Machine
end

section
/-! The requests on the floor-hold table (O18), shipment release (O19) and ADMIT (O15). -/

namespace Sys2Proof.Machine

/-! ## The floor-hold table (R171, R172, R177) -/

theorem untrackedHeld_iff (d : Device) (o t : Nat) : untrackedHeld d o t = true ↔
    ∃ i l, lotAt d i = some l ∧ ∃ x ∈ l.holds, x.key = .remote o t ∧ x.untracked = true := by
  simp only [untrackedHeld, List.any_eq_true, Prod.exists, mem_lotList, isRemoteOf, Bool.and_eq_true, beq_iff_eq]

/-- Settles O18: each request by the branch that its look at the table gives. -/
theorem floorHoldRequests : Obligations.FloorHoldRequests := by
  refine ⟨fun s serving => ⟨fun program reason p1 p2 r1 r2 => ?_, fun tag t1 t2 => ?_, fun origin tag o1 t1 t2 => ?_⟩,
    fun o p t d => ⟨rfl, untrackedHeld_iff d o t⟩⟩
  · have taken : exec (.placeFloorHold program reason) s = _ := exec_of_checked rfl serving (fun _ => rfl)
      (by rw [isProgram, inRange_eq_true p1 p2, inRange_eq_true r1 r2]; rfl)
    rw [taken]
    refine ⟨fun e held => ?_, fun none full => ?_, fun none room => ⟨_, _, _, rfl, rfl, rfl, ?_⟩⟩
    · rw [held]
      dsimp only
      rw [byte1_eq]
      rfl
    · rw [none]
      dsimp only
      rw [if_pos full]
      rfl
    · rw [none]
      dsimp only
      rw [if_neg (by omega), byte1_eq]
      rfl
  · have taken : exec (.liftFloor tag) s = _ := exec_of_checked rfl serving (fun _ => rfl)
      (by rw [inRange_eq_true t1 t2]; rfl)
    rw [taken]
    refine ⟨fun none => ?_, fun e held => ?_⟩
    · rw [none]
      rfl
    · rw [held]
      rfl
  · have taken : exec (.override origin tag) s = _ := exec_of_checked rfl serving (fun _ => rfl)
      (by rw [decide_eq_true o1, inRange_eq_true t1 t2]; rfl)
    rw [taken]
    refine ⟨fun e held stale => ?_, fun e held fresh => ?_, fun none untracked => ?_, fun none tracked => ?_⟩
    · rw [held]
      dsimp only
      rw [if_pos stale]
      rfl
    · rw [held]
      dsimp only
      rw [fresh]
      rfl
    · rw [none]
      dsimp only
      rw [if_pos untracked]
      rfl
    · rw [none]
      dsimp only
      rw [tracked]
      rfl

/-! ## Release records (R181 to R185, R188) -/

theorem placeRecord_of_delay {c : ConfigBlock} (r : Release) (h : c.releaseDelay ≠ 0) : placeRecord c none r =
    { r with state := .delayed, timer := some (c.releaseDelay * 60000), cause := none } := by
  rw [placeRecord, startDelay, if_neg h]
  rfl

theorem placeRecord_of_noDelay {c : ConfigBlock} (r : Release) (h : c.releaseDelay = 0) : placeRecord c none r =
    { r with state := .ready, timer := none, cause := none } := by
  rw [placeRecord, startDelay, if_pos h]

/-- A record enters a state of its own with its other fields as they were. -/
theorem placeRecord_frame (c : ConfigBlock) (cover : Option FloorHold) (r : Release) : ∃ state timer cause,
    placeRecord c cover r = { r with state := state, timer := timer, cause := cause } := by
  cases cover with
  | some e => exact ⟨_, _, _, rfl⟩
  | none =>
    by_cases noDelay : c.releaseDelay = 0
    · exact ⟨_, _, _, placeRecord_of_noDelay r noDelay⟩
    · exact ⟨_, _, _, placeRecord_of_delay r noDelay⟩

theorem takeWaiting_of_idle {d : Device}
    (h : 6 ≤ d.rlu.records.length ∨ ∀ i l, lotAt d i = some l → l.state ≠ .review) : takeWaiting d = d := by
  unfold takeWaiting
  cases picked : firstInQueueOrder d fun l => l.state == .review with
  | none => rfl
  | some e =>
    obtain ⟨i, l⟩ := e
    obtain ⟨hl, review⟩ := firstInQueueOrder_some picked
    refine if_neg fun room => ?_
    rcases h with full | noReview
    · omega
    · exact noReview i l hl (by simpa using review)

theorem takeWaiting_of_first {d : Device} {i : Fin 8} {l : Lot} (room : d.rlu.records.length < 6)
    (hl : lotAt d i = some l) (review : l.state = .review)
    (first : ∀ j m, lotAt d j = some m → m.state = .review → j ≠ i → queueBefore l m = true) :
    takeWaiting d = createRelease i l d := by
  unfold takeWaiting
  rw [firstInQueueOrder_eq_some hl (by simp [review]) fun j m hm waits => first j m hm (by simpa using waits)]
  exact if_pos room

theorem offerReview_of_room {i : Fin 8} {l : Lot} {d : Device} (hl : lotAt d i = some l)
    (room : d.rlu.records.length < 6) : offerReview i d = createRelease i l d := by
  unfold offerReview
  rw [hl]
  exact if_pos room

theorem offerReview_of_full {i : Fin 8} {l : Lot} {d : Device} (hl : lotAt d i = some l)
    (full : 6 ≤ d.rlu.records.length) : offerReview i d = noteQueueFull i l d := by
  unfold offerReview
  rw [hl]
  exact if_neg (by omega)

/-- R181: the record of a lot whose last close is `m`. -/
def closedRecord (number : Nat) (l : Lot) (m : CloseSummary) : Release :=
  { number, lotId := l.id, product := l.product, kit := l.kit, programs := l.plan.map (·.program)
    completed := l.completed, qFirst := l.qFirst, qLast := m.qIn
    good := m.good, reject := m.reject, missing := m.missing, excess := m.excess
    attrition := (l.qFirst : Int) - (m.qIn : Int), finalYield := m.finalYield
    runTime := l.runTime, holdCount := l.holdCount, marks := l.marks
    state := .delayed, timer := none, cause := none }

theorem recordOf_of_summary {number : Nat} {l : Lot} {m : CloseSummary} (h : l.summary = some m) :
    recordOf number l = closedRecord number l m := by
  rw [recordOf, lastClose, h]
  rfl

theorem firstCover_eq_none_iff (d : Device) (p : List Nat) :
    firstCover d p = none ↔ ∀ e ∈ d.hdu.table, e.program ∉ p := by
  simp [firstCover]

/-! ## COLLECT and DISPOSE_RELEASE (R189, R190) -/

theorem exec_collect {number : Nat} {s : State} (serving : Serving s.dev) (low : 1 ≤ number) (high : number ≤ 65535) :
    (recordNumbered s.dev number = none →
      exec (.collect number) s = .next (moved s (respond ⟨16, .notFound, []⟩ s.dev))) ∧
    ∀ r, recordNumbered s.dev number = some r → exec (.collect number) s = .next (moved s
      (if r.state = .ready then respond ⟨16, .ok, collectBytes r⟩ (settle (removeRecord number s.dev))
       else respond ⟨16, .badState, [BitVec.ofNat 8 (releaseCode r.state)]⟩ s.dev)) := by
  have taken : exec (.collect number) s = _ := exec_of_checked rfl serving (fun _ => rfl)
    (by rw [inRange_eq_true low high]; rfl)
  rw [taken]
  refine ⟨fun none => ?_, fun r held => ?_⟩
  · rw [none]
    rfl
  · rw [held]
    dsimp only
    rw [byte1_eq]
    rfl

theorem exec_disposeRelease {number disposition : Nat} {s : State} (serving : Serving s.dev) (low : 1 ≤ number)
    (high : number ≤ 65535) (least : 1 ≤ disposition) (most : disposition ≤ 2) :
    (recordNumbered s.dev number = none →
      exec (.disposeRelease number disposition) s = .next (moved s (respond ⟨17, .notFound, []⟩ s.dev))) ∧
    ∀ r, recordNumbered s.dev number = some r → exec (.disposeRelease number disposition) s = .next (moved s
      (if r.state ≠ .recalled then respond ⟨17, .badState, []⟩ s.dev
       else if disposition = 2 then respond ⟨17, .ok, []⟩ (settle (removeRecord number s.dev))
       else if r.cause ≠ some .untracked then respond ⟨17, .badState, []⟩ s.dev
       else respond ⟨17, .ok, []⟩
        (modifyRecord number (placeRecord (cfg s.dev) (firstCover s.dev r.programs)) s.dev))) := by
  have taken : exec (.disposeRelease number disposition) s = _ := exec_of_checked rfl serving (fun _ => rfl)
    (by rw [inRange_eq_true low high, inRange_eq_true least most]; rfl)
  rw [taken]
  refine ⟨fun none => ?_, fun r held => ?_⟩
  · rw [none]
    rfl
  · rw [held]
    rfl

theorem exec_delayExpiry {number n : Nat} {r : Release} {s : State} (alive : live s.dev = true)
    (held : recordNumbered s.dev number = some r) (delayed : r.state = .delayed) (timer : r.timer = some n) :
    exec (.delayExpiry number) s = .next (moved s (settle (modifyRecord number delayOver s.dev))) := by
  show commit s (onTimer (delayRuns s.dev number) _ s.dev) = _
  rw [onTimer_of_running alive (by simp [delayRuns, held, delayed, timer])]
  rfl

/-- Settles O19: the requests and the moves of a record, branch by branch. -/
theorem releaseRequestsAndDelay : Obligations.ReleaseRequestsAndDelay := by
  refine ⟨fun number s serving low high => ⟨fun none => ⟨(exec_collect serving low high).1 none, fun x least most =>
      (exec_disposeRelease serving low high least most).1 none⟩, fun r held => ⟨_, rfl, fun ready => ?_,
      fun notReady => ?_, fun recalled => ?_, fun recalled untracked => ?_, fun recalled tracked => ?_,
      fun notRecalled x least most => ?_⟩⟩,
    fun number r n s alive held delayed timer => exec_delayExpiry alive held delayed timer,
    fun d => ⟨takeWaiting_of_idle, fun i l => takeWaiting_of_first⟩,
    fun i l d hl => ⟨offerReview_of_room hl, fun full noted => ?_, fun full fresh => ?_⟩,
    fun i l m d closed => ?_, fun p r d => ⟨rfl, fun e => rfl, placeRecord_of_noDelay r, placeRecord_of_delay r⟩⟩
  · rw [(exec_collect serving low high).2 r held, if_pos ready]
    rfl
  · rw [(exec_collect serving low high).2 r held, if_neg notReady]
  · rw [(exec_disposeRelease serving low high (by decide) (by decide)).2 r held, if_neg (not_not.2 recalled),
      if_pos rfl]
    rfl
  · rw [(exec_disposeRelease serving low high (by decide) (by decide)).2 r held, if_neg (not_not.2 recalled),
      if_neg (by decide), if_neg (not_not.2 untracked)]
    rfl
  · rw [(exec_disposeRelease serving low high (by decide) (by decide)).2 r held, if_neg (not_not.2 recalled),
      if_neg (by decide), if_pos tracked]
  · rw [(exec_disposeRelease serving low high least most).2 r held, if_pos notRecalled]
  · rw [offerReview_of_full hl full, noteQueueFull, if_pos noted]
  · rw [offerReview_of_full hl full, noteQueueFull, fresh]
    rfl
  · refine ⟨_, _, rfl, rfl, ?_⟩
    rw [recordOf_of_summary closed]
    generalize made : placeRecord _ _ _ = r
    obtain ⟨state, timer, cause, placed⟩ := placeRecord_frame (cfg d) (firstCover d (l.plan.map (·.program)))
      (closedRecord (nextNumber d) l m)
    obtain rfl := made.symm.trans placed
    refine ⟨rfl, rfl, rfl, rfl, rfl, rfl, rfl, rfl, rfl, rfl, rfl, rfl, rfl, rfl, rfl, rfl, rfl, fun e covers => ?_,
      fun uncovered => ?_⟩
    · rw [show firstCover d (l.plan.map (·.program)) = some e from covers] at made
      cases made
      exact ⟨rfl, rfl, rfl⟩
    · have noCover : firstCover d (l.plan.map (·.program)) = none := (firstCover_eq_none_iff d _).2 uncovered
      rw [noCover] at made
      by_cases noDelay : (cfg d).releaseDelay = 0
      · rw [placeRecord_of_noDelay _ noDelay] at made
        cases made
        exact ⟨rfl, fun _ => ⟨rfl, rfl⟩, fun delay => absurd noDelay delay⟩
      · rw [placeRecord_of_delay _ noDelay] at made
        cases made
        exact ⟨rfl, fun none => absurd none noDelay, fun _ => ⟨rfl, rfl⟩⟩

end Sys2Proof.Machine
end

section
/-! ADMIT (O15): the lot fills the slot QUEUED, or HELD with an entry for each floor hold that covers it. -/

namespace Sys2Proof.Machine

/-! ## The floor holds that cover a new lot (R169) -/

/-- The hold entry that a floor hold makes at time `t` on a lot in insertion 1. -/
def remoteEntry (t : Nat) (e : FloorHold) : HoldEntry := ⟨.remote e.origin e.tag, 1, t, 1, false⟩

/-- R4, R161: a new lot with the floor holds `cover` requested of it at time `t`. -/
def coveredLot (t : Nat) (cover : List FloorHold) (l : Lot) : Lot := { l with
  holds := (cover.take 6).map (remoteEntry t), overflow := decide (6 < cover.length)
  holdCount := min 6 cover.length }

/-- R161: the ACCOUNTING bank with a fault for each entry past the sixth. -/
def overflowBank (i : Fin 8) (t : Nat) (cover : List FloorHold) (b : FaultBank) : FaultBank :=
  (cover.drop 6).foldl (fun b _ => takeFault b ⟨.corrected, .holdSetFull, i.val, t⟩) b

/-- What the requests of the floor holds `cover` leave of a device with the new lot in slot `i`. -/
def coveredDevice (i : Fin 8) (cover : List FloorHold) (l : Lot) (d : Device) : Device :=
  putLot i (some (coveredLot (now d) cover l))
    { d with ctp := { d.ctp with accountingBank := overflowBank i (now d) cover d.ctp.accountingBank } }

theorem mem_coveredLot_holds {t : Nat} {cover : List FloorHold} {l : Lot} {x : HoldEntry}
    (h : x ∈ (coveredLot t cover l).holds) : ∃ e ∈ cover, x = remoteEntry t e := by
  obtain ⟨e, he, rfl⟩ := List.mem_map.1 h
  exact ⟨e, List.mem_of_mem_take he, rfl⟩

/-- One more covering entry, of a key of its own. -/
theorem storeHold_coveredDevice (i : Fin 8) {cover : List FloorHold} {e : FloorHold} {l : Lot} (d : Device)
    (insertion : l.cur = 1) (fresh : ∀ x ∈ cover, (x.origin, x.tag) ≠ (e.origin, e.tag)) :
    storeHold i (.remote e.origin e.tag) false (coveredDevice i cover l d) = coveredDevice i (cover ++ [e]) l d := by
  have new : ∀ x ∈ (coveredLot (now d) cover l).holds, x.key ≠ .remote e.origin e.tag := by
    intro x hx same
    obtain ⟨y, hy, rfl⟩ := mem_coveredLot_holds hx
    injection same with o t
    exact fresh y hy (Prod.ext o t)
  have size : (coveredLot (now d) cover l).holds.length = min 6 cover.length := by simp [coveredLot]
  have here : lotAt (coveredDevice i cover l d) i = some (coveredLot (now d) cover l) := lotAt_putLot_same ..
  by_cases room : cover.length < 6
  · have outcome := holdOutcome_of_room new (by omega)
    have stored : applyHold (now d) (.remote e.origin e.tag) false (coveredLot (now d) cover l) =
        coveredLot (now d) (cover ++ [e]) l := by
      have taken : cover.take 6 = cover := List.take_of_length_le (by omega)
      have takenAll : (cover ++ [e]).take 6 = cover ++ [e] := List.take_of_length_le (by simp; omega)
      have count : satAdd 255 (min 6 cover.length) 1 = min 6 (cover ++ [e]).length := by
        simp [satAdd]; omega
      have fits : decide (6 < cover.length) = decide (6 < (cover ++ [e]).length) := by simp; omega
      rw [applyHold, outcome]
      dsimp only [coveredLot]
      rw [taken, takenAll, count, fits, List.map_append, List.map_singleton, remoteEntry, insertion]
      rfl
    have bank : overflowBank i (now d) (cover ++ [e]) d.ctp.accountingBank =
        overflowBank i (now d) cover d.ctp.accountingBank := by
      rw [overflowBank, overflowBank, List.drop_of_length_le (by simp; omega), List.drop_of_length_le (by omega)]
    rw [storeHold_eq here, outcome, if_neg (by decide), show now (coveredDevice i cover l d) = now d from rfl, stored,
      coveredDevice, putLot_putLot, coveredDevice, bank]
  · have outcome := holdOutcome_of_full new (by omega)
    have stored : applyHold (now d) (.remote e.origin e.tag) false (coveredLot (now d) cover l) =
        coveredLot (now d) (cover ++ [e]) l := by
      have taken : (cover ++ [e]).take 6 = cover.take 6 := List.take_append_of_le_length (by omega)
      have count : min 6 (cover ++ [e]).length = min 6 cover.length := by simp; omega
      have full : decide (6 < (cover ++ [e]).length) = true := decide_eq_true (by simp; omega)
      rw [applyHold, outcome]
      dsimp only [coveredLot]
      rw [taken, count, full]
    have bank : overflowBank i (now d) (cover ++ [e]) d.ctp.accountingBank =
        takeFault (overflowBank i (now d) cover d.ctp.accountingBank) ⟨.corrected, .holdSetFull, i.val, now d⟩ := by
      rw [overflowBank, List.drop_append_of_le_length (by omega), List.foldl_append]
      rfl
    rw [storeHold_eq here, outcome, if_pos rfl, show now (coveredDevice i cover l d) = now d from rfl, stored,
      coveredDevice, putLot_putLot, coveredDevice, bank]
    rfl

theorem foldl_storeHold_eq (i : Fin 8) {l : Lot} (d : Device) (insertion : l.cur = 1) (cover : List FloorHold)
    (keys : (cover.map fun e => (e.origin, e.tag)).Nodup) :
    cover.foldl (fun d e => storeHold i (.remote e.origin e.tag) false d) (coveredDevice i [] l d) =
      coveredDevice i cover l d := by
  induction cover using List.reverseRecOn with
  | nil => rfl
  | append_singleton cover e ih =>
    rw [List.map_append, List.nodup_append] at keys
    obtain ⟨keys, -, apart⟩ := keys
    rw [List.foldl_append, ih keys]
    refine storeHold_coveredDevice i d insertion fun x hx => apart _ (List.mem_map_of_mem hx) _ ?_
    simp

/-! ## ADMIT (R4, R5, R8) -/

theorem readySequence_hdu (d : Device) : (readySequence d).hdu = d.hdu := by
  unfold readySequence
  split <;> rfl

theorem readySequence_ctp (d : Device) : (readySequence d).ctp = d.ctp := by
  unfold readySequence
  split <;> rfl

theorem readySequence_lines (d : Device) : (readySequence d).lines = d.lines := by
  unfold readySequence
  split <;> rfl

/-- R4, R5: the table and the counter with the new lot in its slot. -/
def withLot (i : Fin 8) (l : Lot) (r : Device) : Device :=
  putLot i (some l) { r with lmg := { r.lmg with sequence := r.lmg.sequence + 1 } }

theorem lotAt_withLot (i : Fin 8) (l : Lot) (r : Device) : lotAt (withLot i l r) i = some l := lotAt_putLot_same ..

/-- R4: ADMIT from the table and counter `r` that R5 has made ready. -/
theorem admitLot_eq (i : Fin 8) (l : Lot) (d : Device) {r : Device} (ready : r = readySequence d) {held : Bool}
    (cover : (d.hdu.table.any fun e => lotCovered l e.program) = held) {new : Lot}
    (numbered : new = { l with seq := r.lmg.sequence + 1 }) : admitLot i l d =
      respond ⟨7, .ok, [BitVec.ofNat 8 i.val, BitVec.ofNat 8 (stateCode (if held then .held else .queued))]⟩
        (if held then enterHeld i (coverNewLot i new (withLot i new r)) else enterQueued i (withLot i new r)) := by
  subst ready numbered
  rw [← readySequence_hdu] at cover
  rw [← cover]
  unfold admitLot
  dsimp only
  rw [byte1_eq, byte1_eq]
  rfl

theorem admitLot_of_uncovered {i : Fin 8} {l : Lot} {d r : Device} (ready : r = readySequence d)
    (queued : l.state = .queued) (noResume : l.resume = none)
    (uncovered : ∀ e ∈ d.hdu.table, lotCovered l e.program = false) : admitLot i l d =
      respond ⟨7, .ok, [BitVec.ofNat 8 i.val, 1]⟩ (settle
        (if l.cls = 0 then preempt (withLot i { l with seq := r.lmg.sequence + 1 } r)
         else withLot i { l with seq := r.lmg.sequence + 1 } r)) := by
  have none : (d.hdu.table.any fun e => lotCovered l e.program) = false := by
    simpa using uncovered
  have same (seq : Nat) : putLot i (some { { l with seq := seq } with state := .queued, resume := Option.none })
      (withLot i { l with seq := seq } r) = withLot i { l with seq := seq } r := by
    rw [← queued, ← noResume]
    exact putLot_putLot ..
  rw [admitLot_eq i l d ready none rfl, if_neg (by decide), enterQueued_eq (lotAt_withLot ..), same]
  rfl

theorem admitLot_of_covered {i : Fin 8} {l : Lot} {d r : Device} (ready : r = readySequence d)
    {e : FloorHold} (he : e ∈ d.hdu.table) (covered : lotCovered l e.program = true) : admitLot i l d =
      respond ⟨7, .ok, [BitVec.ofNat 8 i.val, 7]⟩ (enterHeld i
        (coverNewLot i { l with seq := r.lmg.sequence + 1 } (withLot i { l with seq := r.lmg.sequence + 1 } r))) := by
  rw [admitLot_eq i l d ready (List.any_eq_true.2 ⟨e, he, covered⟩) rfl]
  rfl

theorem preempt_of_staging {i : Fin 8} {l : Lot} {d : Device} (staging : stagingLot d = some (i, l)) (cls : 1 ≤ l.cls)
    (closed : l.opened = false) : preempt d = putLot i (some { l with state := .queued }) d := by
  unfold preempt
  rw [staging]
  dsimp only
  rw [if_pos ⟨cls, closed⟩, modifyLot_some _ (stagingLot_some staging).1]

theorem preempt_of_rest {d : Device} (h : ∀ i l, stagingLot d = some (i, l) → l.cls = 0 ∨ l.opened = true) :
    preempt d = d := by
  unfold preempt
  cases staging : stagingLot d with
  | none => rfl
  | some e =>
    obtain ⟨i, l⟩ := e
    refine if_neg fun ⟨cls, closed⟩ => ?_
    rcases h i l staging with zero | opened
    · omega
    · rw [closed] at opened
      cases opened

theorem exec_admit {lotId product kit cls qty planCount : Nat} {plan : List PlanField} {i : Fin 8} {s : State}
    (serving : Serving s.dev) (good : firstBad (admitChecks lotId product kit cls qty planCount plan) = none)
    (new : idHeld s.dev lotId = false) (slot : emptySlot s.dev = some i) :
    exec (.admitLot lotId product kit cls qty planCount plan) s = .next (moved s
      (admitLot i (newLot lotId product kit cls qty 0 ((plan.take planCount).map planEntryOf)) s.dev)) := by
  have taken : exec (.admitLot lotId product kit cls qty planCount plan) s = _ :=
    exec_of_checked rfl serving (fun _ => rfl) good
  rw [taken, new, slot]
  rfl

theorem lotCovered_newLot (lotId product kit cls qty seq : Nat) (plan : List PlanField) (program : Nat) :
    lotCovered (newLot lotId product kit cls qty seq (plan.map planEntryOf)) program =
      plan.any fun p => p.program == program := by
  simp only [lotCovered, newLot, List.any_map]
  rfl

/-- R169: the floor holds that cover the new lot, requested of it in table order. -/
theorem coverNewLot_withLot {i : Fin 8} {l : Lot} {r : Device} {cover : List FloorHold} (insertion : l.cur = 1)
    (noHold : l.holds = [] ∧ l.overflow = false ∧ l.holdCount = 0)
    (covers : r.hdu.table.filter (fun e => lotCovered l e.program) = cover)
    (keys : (cover.map fun e => (e.origin, e.tag)).Nodup) :
    coverNewLot i l (withLot i l r) = coveredDevice i cover l (withLot i l r) := by
  obtain ⟨holds, overflow, count⟩ := noHold
  have bare (t : Nat) : coveredLot t [] l = l := by
    calc coveredLot t [] l = { l with holds := [], overflow := false, holdCount := 0 } := rfl
      _ = l := by rw [← holds, ← overflow, ← count]
  have start : coveredDevice i [] l (withLot i l r) = withLot i l r := by
    rw [coveredDevice, bare]
    exact putLot_putLot i (some l) (some l) { r with lmg := { r.lmg with sequence := r.lmg.sequence + 1 } }
  rw [coverNewLot, show (withLot i l r).hdu.table = r.hdu.table from rfl, covers]
  conv_lhs => rw [← start]
  exact foldl_storeHold_eq i _ insertion cover keys

/-- A covered new lot enters HELD. -/
theorem enterHeld_coveredDevice {i : Fin 8} {cover : List FloorHold} {l : Lot} {d : Device} (queued : l.state = .queued)
    (some : cover ≠ []) : enterHeld i (coveredDevice i cover l d) =
      settle (putLot i (.some (heldLot (coveredLot (now d) cover l))) (coveredDevice i cover l d)) := by
  refine enterHeld_of_held (lotAt_putLot_same ..) (by simp [coveredLot, queued]) (.inl ?_)
  obtain ⟨e, rest, rfl⟩ := List.exists_cons_of_ne_nil some
  simp [coveredLot]

/-- R4, R169: ADMIT of a lot that the floor holds `cover` cover. -/
theorem admitLot_of_cover {i : Fin 8} {l new : Lot} {d r : Device} {cover : List FloorHold} (ready : r = readySequence d)
    (numbered : new = { l with seq := r.lmg.sequence + 1 }) (insertion : l.cur = 1) (queued : l.state = .queued)
    (noHold : l.holds = [] ∧ l.overflow = false ∧ l.holdCount = 0)
    (covers : d.hdu.table.filter (fun e => lotCovered l e.program) = cover)
    (keys : (cover.map fun e => (e.origin, e.tag)).Nodup) (covered : cover ≠ []) : admitLot i l d =
      respond ⟨7, .ok, [BitVec.ofNat 8 i.val, 7]⟩ (settle (putLot i (some (heldLot (coveredLot (now d) cover new)))
        (coveredDevice i cover new (withLot i new r)))) := by
  obtain ⟨e, he⟩ := List.exists_mem_of_ne_nil _ covered
  obtain ⟨inTable, covering⟩ := List.mem_filter.1 (covers ▸ he)
  have time : now (withLot i new r) = now d := by
    show now r = now d
    rw [now, ready, readySequence_ctp, now]
  rw [admitLot_of_covered ready inTable covering, ← numbered, coverNewLot_withLot (cover := cover),
    enterHeld_coveredDevice _ covered, time]
  · subst numbered
    exact queued
  · subst numbered
    exact insertion
  · subst numbered
    exact noHold
  · subst numbered
    rw [ready, readySequence_hdu]
    exact covers
  · exact keys

theorem lotAt_settle_of_held {i : Fin 8} {l : Lot} {d : Device} (hl : lotAt d i = some l) (held : l.state = .held) :
    lotAt (settle d) i = some l := by
  rcases (settlingLeavesTheRest d).lots i with ⟨none, -⟩ | ⟨l', m, hl', hm, kept⟩
  · rw [hl] at none
    cases none
  · obtain rfl := Option.some.inj (hl.symm.trans hl')
    obtain ⟨-, -, -, -, -, -, -, -, -, -, -, -, -, -, -, -, -, -, -, same⟩ := kept
    rw [hm, same (by simp [held]) (by simp [held])]

/-- Settles O15: `admitLot` without and with a covering floor hold, and `preempt`. -/
theorem admitFillsTheLowestEmptySlot : Obligations.AdmitFillsTheLowestEmptySlot := by
  refine ⟨fun lotId product kit cls qty planCount plan i s serving good new slot => ⟨_, _, rfl, rfl,
    fun uncovered => ⟨_, rfl, ?_⟩, fun keys => ⟨_, rfl, fun some => ?_⟩⟩,
    fun d => ⟨fun i l => preempt_of_staging, preempt_of_rest⟩⟩
  · rw [exec_admit serving good new slot, admitLot_of_uncovered rfl rfl rfl]
    · rfl
    · intro e he
      rw [lotCovered_newLot, List.any_eq_false]
      exact fun p hp => by simpa using uncovered e he p hp
  · have filtered : s.dev.hdu.table.filter (fun e => lotCovered (newLot lotId product kit cls qty 0
        ((plan.take planCount).map planEntryOf)) e.program) =
        s.dev.hdu.table.filter fun e => (plan.take planCount).any fun p => p.program == e.program :=
      congrArg (s.dev.hdu.table.filter ·) (funext fun e => lotCovered_newLot ..)
    have taken := exec_admit serving good new slot
    rw [admitLot_of_cover rfl rfl rfl rfl ⟨rfl, rfl, rfl⟩ filtered (keys.sublist (List.filter_sublist.map _)) some] at taken
    refine ⟨_, heldLot (coveredLot (now s.dev) _ (newLot lotId product kit cls qty
      ((readySequence s.dev).lmg.sequence + 1) ((plan.take planCount).map planEntryOf))), taken, ?_, ?_, ?_, ?_, rfl, rfl, rfl, rfl, rfl, rfl, rfl, rfl, rfl, ?_⟩
    · rw [moved_dev, refreshPins_lines, respond_out, (settlingLeavesTheRest _).terminalOut]
      exact congrArg (·.terminalOut ++ [_]) (readySequence_lines s.dev)
    · rw [moved_dev, refreshPins_lmg, respond_lmg, (settlingLeavesTheRest _).sequence]
      rfl
    · rw [moved_dev, refreshPins_hdu, respond_hdu, (settlingLeavesTheRest _).hdu]
      exact readySequence_hdu s.dev
    · rw [moved_dev, lotAt_of_lmg (refreshPins_lmg _), lotAt_of_lmg (respond_lmg ..)]
      exact lotAt_settle_of_held (lotAt_putLot_same ..) rfl
    · rw [moved_dev, refreshPins_ctp, respond_ctp, (settlingLeavesTheRest _).ctp]
      show overflowBank i (readySequence s.dev).ctp.joinClock _ (readySequence s.dev).ctp.accountingBank = _
      rw [readySequence_ctp]
      rfl

end Sys2Proof.Machine
end

section
/-! The tester's messages and timers: loads (O21), arming and masks (O22), touchdowns and drains (O24), the link (O25). -/

namespace Sys2Proof.Machine

/-! ## Messages and expiries taken (R22, log 3) -/

section
variable {c : Instr} {s : State} {ok : Bool} {act : Device → Device}

theorem exec_of_testerTaken (form : exec c s = commit s (onTester ok act s.dev)) (alive : live s.dev = true)
    (good : ok = true) : exec c s = .next (moved s (settle (act (testerHeard s.dev)))) := by
  rw [form, onTester, if_pos alive, if_pos good]
  rfl

theorem exec_of_testerBad (form : exec c s = commit s (onTester ok act s.dev)) (alive : live s.dev = true)
    (bad : ok = false) : exec c s = exec (.testerBadMessage true) s := by
  rw [form, onTester_of_bad alive bad]
  show _ = commit s (if live s.dev then _ else s.dev)
  rw [if_pos alive]
  rfl

theorem exec_of_timer (form : exec c s = commit s (onTimer ok act s.dev)) (alive : live s.dev = true)
    (runs : ok = true) : exec c s = .next (moved s (settle (act s.dev))) := by
  rw [form, onTimer_of_running alive runs]
  rfl

end

/-! ## Loads (R26, R27, R29) -/

section
variable {d : Device} {ld : Load}

theorem takeLoaded_of_load (h : d.tpt.load = some ld) (p : Nat) : takeLoaded p d = loadEnds ld p d := by
  unfold takeLoaded
  rw [h]

theorem takeLoaded_of_none (h : d.tpt.load = none) (p : Nat) : takeLoaded p d = loadedUnexpected p d := by
  unfold takeLoaded
  rw [h]

theorem exec_loadFail_of_load {s : State} (alive : live s.dev = true) (h : s.dev.tpt.load = some ld) {code : Nat}
    (byte : code ≤ 255) :
    exec (.loadFail code) s = .next (moved s (settle (loadFails .loadFail ld (testerHeard s.dev)))) := by
  have taken := exec_of_testerTaken (c := .loadFail code) rfl alive (decide_eq_true byte)
  rw [taken, show (testerHeard s.dev).tpt.load = some ld from h]

theorem exec_loadFail_of_none {s : State} (alive : live s.dev = true) (h : s.dev.tpt.load = none) {code : Nat}
    (byte : code ≤ 255) :
    exec (.loadFail code) s = .next (moved s (settle (raise .tester .note .unexpected 255 (testerHeard s.dev)))) := by
  have taken := exec_of_testerTaken (c := .loadFail code) rfl alive (decide_eq_true byte)
  rw [taken, show (testerHeard s.dev).tpt.load = none from h]
  rfl

theorem exec_loadTimer {s : State} (alive : live s.dev = true) (h : s.dev.tpt.load = some ld) :
    exec .loadTimerExpiry s = .next (moved s (settle (loadFails .loadTimeout ld s.dev))) := by
  have taken := exec_of_timer (c := .loadTimerExpiry) (s := s) rfl alive (by rw [h]; rfl)
  rw [taken, h]

end

theorem exec_loaded {p : Nat} {s : State} (alive : live s.dev = true) (low : 1 ≤ p) (high : p ≤ 4095) :
    exec (.loaded p) s = .next (moved s (settle (takeLoaded p (testerHeard s.dev)))) :=
  exec_of_testerTaken rfl alive (inRange_eq_true low high)

theorem armContradicts_iff (d : Device) (p : Nat) :
    armContradicts d p = true ↔ d.tpt.arm.state ≠ .unarmed ∧ d.tpt.arm.program ≠ p := by simp [armContradicts]

/-- R29: the program is taken, the answer noted, and an arm record that it contradicts cleared. -/
theorem loadedUnexpected_eq (p : Nat) {d v : Device}
    (noted : v = raise .tester .note .unexpected 255 { d with tpt := { d.tpt with loaded := p } }) :
    loadedUnexpected p d = if armContradicts d p = true then
      clearArm (raise .tester .corrected .loadMismatch (slotRef d d.tpt.arm.lot) v) else v := by
  subst noted
  rfl

/-- Settles O21: LOADED, LOAD_FAIL and the load timer, with and without a load in flight. -/
theorem loadAnswers : Obligations.LoadAnswers := by
  refine ⟨fun ld s alive h => ⟨_, rfl, fun low high => ?_, fun p low high other => ?_,
      fun code byte => exec_loadFail_of_load alive h byte, exec_loadTimer alive h⟩,
    fun s alive h => ⟨_, rfl, fun p v low high hv => ⟨fun agrees => ?_, fun armed other => ?_⟩,
      fun code byte => exec_loadFail_of_none alive h byte⟩⟩
  · rw [exec_loaded alive low high, takeLoaded_of_load (d := testerHeard s.dev) h, loadEnds, if_pos rfl]
    rfl
  · rw [exec_loaded alive low high, takeLoaded_of_load (d := testerHeard s.dev) h, loadEnds, if_neg other]
    rfl
  · rw [exec_loaded alive low high, takeLoaded_of_none (d := testerHeard s.dev) h, loadedUnexpected_eq p hv, if_neg]
    rw [armContradicts_iff]
    exact fun ⟨armed, other⟩ => agrees.elim armed other
  · rw [exec_loaded alive low high, takeLoaded_of_none (d := testerHeard s.dev) h, loadedUnexpected_eq p hv,
      if_pos ((armContradicts_iff (testerHeard s.dev) p).2 ⟨armed, other⟩)]
    rfl

/-! ## Arming and masks (R31 to R33) -/

/-- The sites that are DISABLING and stand at `b` in the site set `m` become DISABLED. -/
def disabledIn (m : BitVec 8) (b : Bool) (k : Fin 8) (v : SiteState) : SiteState :=
  if v = .disabling ∧ m.getLsbD k.val = b then .disabled else v

theorem foldl_disable_mask (m : BitVec 8) (b : Bool) (sites : List (Fin 8)) (distinct : sites.Nodup) (d : Device)
    (k : Fin 8) : (sites.foldl (fun d s =>
        if d.tpt.mask[s] = .disabling ∧ m.getLsbD s.val = b then setSite s .disabled d else d) d).tpt.mask[k] =
      if k ∈ sites then disabledIn m b k d.tpt.mask[k] else d.tpt.mask[k] := by
  induction sites generalizing d with
  | nil => simp
  | cons s sites ih =>
    obtain ⟨fresh, distinct⟩ := List.nodup_cons.1 distinct
    rw [List.foldl_cons, ih distinct]
    by_cases same : k = s
    · subst same
      rw [if_neg fresh, if_pos (List.mem_cons_self ..), disabledIn]
      split <;> simp [setSite]
    · have other : (if d.tpt.mask[s] = .disabling ∧ m.getLsbD s.val = b then setSite s .disabled d else d).tpt.mask[k] =
          d.tpt.mask[k] := by
        split
        · simp [setSite, Fin.val_ne_of_ne (Ne.symm same)]
        · rfl
      rw [other]
      simp [same]

theorem foldl_disable_eq (m : BitVec 8) (b : Bool) (d : Device) : siteList.foldl (fun d s =>
      if d.tpt.mask[s] = .disabling ∧ m.getLsbD s.val = b then setSite s .disabled d else d) d =
    { d with tpt := { d.tpt with mask := Vector.ofFn fun k : Fin 8 => disabledIn m b k d.tpt.mask[k] } } := by
  have rest : ∀ sites : List (Fin 8), ∃ mask, sites.foldl (fun d s =>
      if d.tpt.mask[s] = .disabling ∧ m.getLsbD s.val = b then setSite s .disabled d else d) d =
      { d with tpt := { d.tpt with mask } } := by
    intro sites
    induction sites using List.reverseRecOn with
    | nil => exact ⟨_, rfl⟩
    | append_singleton sites s ih =>
      obtain ⟨mask, ih⟩ := ih
      rw [List.foldl_append, ih, List.foldl_cons, List.foldl_nil]
      split <;> exact ⟨_, rfl⟩
  obtain ⟨mask, folded⟩ := rest siteList
  have all : ∀ k : Fin 8, k ∈ siteList := by decide
  have same : mask = Vector.ofFn fun k : Fin 8 => disabledIn m b k d.tpt.mask[k] := by
    refine Vector.ext fun k hk => ?_
    have site := foldl_disable_mask m b siteList (by decide) d ⟨k, hk⟩
    rw [folded, if_pos (all _)] at site
    rw [Vector.getElem_ofFn]
    exact site
  rw [folded, same]

/-- R31: the record armed, and the sites that the mask sent leaves off disabled. -/
def armedDevice (d : Device) : Device := { d with tpt := { d.tpt with
  arm := { d.tpt.arm with state := .armed }
  mask := Vector.ofFn fun k : Fin 8 => disabledIn d.tpt.arm.mask false k d.tpt.mask[k] } }

theorem mask_armedDevice (d : Device) (k : Fin 8) :
    (armedDevice d).tpt.mask[k] = disabledIn d.tpt.arm.mask false k d.tpt.mask[k] := Vector.getElem_ofFn ..

theorem armTaken_eq (d : Device) : armTaken d =
    if maskOwed (armedDevice d) = true ∧ d.tpt.link = .up then sendMask (armedDevice d) else armedDevice d := by
  have settled : settleSites d.tpt.arm.mask (setTpt (fun t => { t with arm := { t.arm with state := .armed } }) d) =
      armedDevice d := foldl_disable_eq ..
  unfold armTaken
  rw [settled]
  rfl

/-- R31: after the settling the DISABLING sites are those that the mask sent still enables. -/
theorem disabledIn_eq_disabling_iff (m : BitVec 8) (k : Fin 8) (v : SiteState) :
    disabledIn m false k v = .disabling ↔ v = .disabling ∧ m.getLsbD k.val = true := by
  unfold disabledIn
  split
  · rename_i off
    exact ⟨(nomatch ·), fun ⟨_, on⟩ => by rw [off.2] at on; cases on⟩
  · rename_i on
    refine ⟨fun disabling => ⟨disabling, ?_⟩, (·.1)⟩
    rw [← Bool.not_eq_false]
    exact fun off => on ⟨disabling, off⟩

theorem disabledIn_eq_enabled_iff (m : BitVec 8) (b : Bool) (k : Fin 8) (v : SiteState) :
    disabledIn m b k v = .enabled ↔ v = .enabled := by
  unfold disabledIn
  split
  · rename_i off
    simp [off.1]
  · rfl

theorem maskOwed_armedDevice_iff (d : Device) : maskOwed (armedDevice d) = true ↔
    ∃ k : Fin 8, d.tpt.mask[k] = .disabling ∧ d.tpt.arm.mask.getLsbD k.val = true := by
  have all : ∀ k : Fin 8, k ∈ siteList := by decide
  simp only [maskOwed, List.any_eq_true, all, true_and, Bool.and_eq_true, beq_iff_eq, mask_armedDevice,
    disabledIn_eq_disabling_iff]
  exact exists_congr fun k => ⟨fun ⟨owed, _⟩ => owed, fun owed => ⟨owed, owed.2⟩⟩

theorem uncoveredSites_armedDevice_iff (d : Device) (k : Fin 8) :
    (uncoveredSites (armedDevice d)).getLsbD k.val = true ↔ d.tpt.mask[k] = .disabling ∧
      d.tpt.arm.mask.getLsbD k.val = true ∧ ∀ x ∈ d.tpt.outstanding, x.getLsbD k.val = false := by
  rw [uncoveredSites, getLsbD_siteBits, mask_armedDevice]
  simp only [Bool.and_eq_true, beq_iff_eq, disabledIn_eq_disabling_iff, Bool.not_eq_true', List.any_eq_false,
    Bool.not_eq_true, and_assoc]
  exact ⟨fun ⟨v, on, uncovered, _⟩ => ⟨v, on, uncovered⟩, fun ⟨v, on, uncovered⟩ => ⟨v, on, uncovered, on⟩⟩

theorem exec_armed {s : State} (alive : live s.dev = true) :
    exec .armed s = .next (moved s (settle (takeArmed (testerHeard s.dev)))) := exec_of_testerTaken rfl alive rfl

theorem exec_armFail {s : State} (alive : live s.dev = true) {code : Nat} (byte : code ≤ 255) :
    exec (.armFail code) s = .next (moved s (settle (takeArmFail (testerHeard s.dev)))) :=
  exec_of_testerTaken rfl alive (decide_eq_true byte)

theorem exec_maskOk {s : State} (alive : live s.dev = true) :
    exec .maskOk s = .next (moved s (settle (takeMaskOk (testerHeard s.dev)))) := exec_of_testerTaken rfl alive rfl

theorem takeArmed_of_open {d : Device} {i : Fin 8} {l : Lot} (sent : d.tpt.arm.state = .sent)
    (opened : openLot d = some (i, l)) (lot : d.tpt.arm.lot = l.id) (insertion : d.tpt.arm.insertion = l.cur) :
    takeArmed d = armTaken d := by
  have named : armNames d l = true := (armNames_iff d l).2 ⟨by simp [sent], lot, insertion⟩
  rw [takeArmed, if_pos sent, opened, Option.any_some, if_pos named]

theorem takeArmed_of_stale {d : Device} (sent : d.tpt.arm.state = .sent) (up : d.tpt.link = .up)
    (stale : ∀ i l, openLot d = some (i, l) → d.tpt.arm.lot ≠ l.id ∨ d.tpt.arm.insertion ≠ l.cur) :
    takeArmed d = testerUnexpected (clearArm (sendTester .halt d)) := by
  have notNamed : ¬ (openLot d).any (fun e => armNames d e.2) = true := by
    intro any
    obtain ⟨⟨i, l⟩, opened, named⟩ := (Option.any_eq_true ..).1 any
    obtain ⟨-, lot, insertion⟩ := (armNames_iff d l).1 named
    exact (stale i l opened).elim (· lot) (· insertion)
  rw [takeArmed, if_pos sent, if_neg notNamed, sendTesterIfUp, if_pos up]

theorem slotRef_of_none {d : Device} {id : Nat} (h : ∀ i l, lotAt d i = some l → l.id ≠ id) : slotRef d id = 255 := by
  rw [slotRef, slotOfId_eq_none h]
  rfl

/-- R26: of equal IDs the lowest slot is the lot's. -/
theorem slotRef_of_lot {d : Device} {id : Nat} {i : Fin 8} {l : Lot} (hl : lotAt d i = some l) (same : l.id = id)
    (least : ∀ j m, lotAt d j = some m → m.id = id → i ≤ j) : slotRef d id = i.val := by
  cases picked : slotOfId d id with
  | none =>
    have absent := List.find?_eq_none.1 picked i (mem_slots i)
    rw [hl, Option.any_some, same, beq_self_eq_true] at absent
    exact absurd rfl absent
  | some j =>
    obtain ⟨m, hm, sameId⟩ := slotOfId_some picked
    obtain ⟨-, before, after, split, skipped⟩ := List.find?_eq_some_iff_append.1 picked
    have sorted : (before ++ j :: after).Pairwise (· < ·) := split ▸ show slots.Pairwise (· < ·) by decide
    have member : i ∈ before ++ j :: after := split ▸ mem_slots i
    have notBefore : i ∉ before := fun earlier => by
      have skip := skipped i earlier
      rw [hl, Option.any_some, same, beq_self_eq_true] at skip
      cases skip
    have first : i = j := by
      rcases List.mem_append.1 member with earlier | here
      · exact absurd earlier notBefore
      · rcases List.mem_cons.1 here with here | later
        · exact here
        · have := List.rel_of_pairwise_cons (List.pairwise_append.1 sorted).2.1 later
          exact absurd (least j m hm sameId) (not_le.2 this)
    rw [slotRef, picked, first]
    rfl

/-- Settles O22: each answer by the arm record and the outstanding list, and `armTaken` by its equation. -/
theorem armAndMaskAnswers : Obligations.ArmAndMaskAnswers := by
  refine ⟨fun s alive => ⟨_, rfl, fun i l sent opened lot insertion => ?_, fun sent up stale => ?_,
      fun notSent => ⟨?_, fun code byte => ?_⟩, fun sent code byte => ?_⟩, fun d => ?_,
    fun s alive => ⟨_, rfl, fun none => ?_, fun e rest first => ?_⟩,
    fun d => ⟨armedDevice d, _, enabledMask (armedDevice d), uncoveredSites (armedDevice d), rfl, Iff.rfl, fun k => ?_,
      uncoveredSites_armedDevice_iff d, fun owed up => ?_, fun h => ?_, rfl, fun id => ⟨slotRef_of_none,
      fun i l => slotRef_of_lot⟩⟩⟩
  · rw [exec_armed alive, takeArmed_of_open (d := testerHeard s.dev) sent opened lot insertion]
  · rw [exec_armed alive, takeArmed_of_stale (d := testerHeard s.dev) sent up stale]
    rfl
  · rw [exec_armed alive, takeArmed, if_neg (show (testerHeard s.dev).tpt.arm.state ≠ .sent from notSent)]
    rfl
  · rw [exec_armFail alive byte, takeArmFail, if_neg (show (testerHeard s.dev).tpt.arm.state ≠ .sent from notSent)]
    rfl
  · rw [exec_armFail alive byte, takeArmFail, if_pos (show (testerHeard s.dev).tpt.arm.state = .sent from sent)]
    rfl
  · rw [armTaken_eq]
    split
    · exact ⟨rfl, mask_armedDevice d⟩
    · exact ⟨rfl, mask_armedDevice d⟩
  · rw [exec_maskOk alive, takeMaskOk, show (testerHeard s.dev).tpt.outstanding = [] from none]
    rfl
  · rw [exec_maskOk alive, takeMaskOk, show (testerHeard s.dev).tpt.outstanding = e :: rest from first]
    dsimp only
    rw [acknowledgeSites, foldl_disable_eq]
    rfl
  · rw [enabledMask_iff, mask_armedDevice, disabledIn_eq_enabled_iff]
  · rw [armTaken_eq, if_pos ⟨(maskOwed_armedDevice_iff d).2 owed, up⟩]
    rfl
  · rw [armTaken_eq, if_neg]
    rintro ⟨owed, up⟩
    exact h.elim (· ((maskOwed_armedDevice_iff d).1 owed)) (· up)

/-! ## Touchdowns and drains (R24, R35 to R37) -/

theorem exec_touchdown_taken {repeats : Nat} {entries : List (Nat × Nat)} {s : State} (alive : live s.dev = true)
    (good : touchdownOk repeats entries.length entries = true) :
    exec (.touchdown repeats entries.length entries) s = .next (moved s (settle
      (touchdown (expandTouchdown repeats entries) (testerHeard s.dev)))) :=
  exec_of_testerTaken rfl alive good

section
variable {results : List (Fin 8 × Fin 16)} {d : Device} {i : Fin 8}

theorem touchdown_of_open {l : Lot} (opened : openLot d = some (i, l)) :
    touchdown results d = results.foldl (fun d r => touchResult i r.1 r.2 d) d := by
  unfold touchdown
  rw [opened]

theorem touchdown_of_late (noneOpen : openLot d = none) (late : lastClosedSlot d = some i) :
    touchdown results d = results.foldl (fun d _ => lateResult i d) d := by
  unfold touchdown
  rw [noneOpen, late]

theorem touchdown_of_unarmed (noneOpen : openLot d = none) (noneClosed : lastClosedSlot d = none) :
    touchdown results d = raise .tester .note .resultUnarmed 255 d := by
  unfold touchdown
  rw [noneOpen, noneClosed]

theorem touchResult_of_disabled {k : Fin 8} {b : Fin 16} (off : d.tpt.mask[k] = .disabled) :
    touchResult i k b d = modifyLot i setMaskDrop d := by
  unfold touchResult
  rw [off]

theorem touchResult_of_taken {k : Fin 8} {b : Fin 16} (h : d.tpt.mask[k] ≠ .disabled) :
    touchResult i k b d = openResult i k b d := by
  unfold touchResult
  cases site : d.tpt.mask[k] with
  | disabled => exact absurd site h
  | enabled => rfl
  | disabling => rfl

theorem raiseTesterDown_of_open {l : Lot} (opened : openLot d = some (i, l)) :
    raiseTesterDown d = raise .tester .uncorrected .testerDown i.val d := by
  unfold raiseTesterDown
  rw [opened]

/-- R24: the tester's state as it goes out of service, the drain apart. -/
def outDevice (link : LinkState) (d : Device) : Device := { raiseTesterDown d with tpt := { (raiseTesterDown d).tpt with
  link := link, loaded := 0, load := none, arm := ⟨.unarmed, 0, 0, 0, 0⟩, outstanding := [], silence := none } }

theorem outOfService_of_idle (link : LinkState) (h : d.tpt.drain = none) : outOfService link d = outDevice link d := by
  unfold outOfService
  rw [h]
  rfl

theorem outOfService_of_drain {n : Nat} (link : LinkState) (h : d.tpt.drain = some n) :
    outOfService link d = endDrain (outDevice link d) := by
  unfold outOfService
  rw [h]
  rfl

theorem takeDown_of_out (h : d.tpt.link = .down ∨ d.tpt.link = .silent) : takeDown d = raiseTesterDown d := if_pos h

theorem takeDown_of_in (notDown : d.tpt.link ≠ .down) (notSilent : d.tpt.link ≠ .silent) :
    takeDown d = outOfService .down d := if_neg (not_or.2 ⟨notDown, notSilent⟩)

end

section
variable {s : State}

theorem exec_idle (alive : live s.dev = true) : exec .idle s = .next (moved s (settle
    (if s.dev.tpt.drain.isSome then endDrain (testerHeard s.dev) else testerHeard s.dev))) :=
  exec_of_testerTaken rfl alive rfl

theorem exec_down (alive : live s.dev = true) :
    exec .down s = .next (moved s (settle (takeDown (testerHeard s.dev)))) := exec_of_testerTaken rfl alive rfl

theorem exec_silenceTimer (alive : live s.dev = true) (runs : s.dev.tpt.silence ≠ none) :
    exec .silenceTimerExpiry s = .next (moved s (settle (outOfService .silent s.dev))) :=
  exec_of_timer rfl alive (Option.isSome_iff_ne_none.2 runs)

theorem exec_drainTimer (alive : live s.dev = true) (runs : s.dev.tpt.drain ≠ none) :
    exec .drainTimerExpiry s = .next (moved s (settle (endDrain s.dev))) :=
  exec_of_timer rfl alive (Option.isSome_iff_ne_none.2 runs)

end

/-- Settles O24: where a touchdown's results go, and the four ways a drain ends. -/
theorem touchdownsAndDrains : Obligations.TouchdownsAndDrains := by
  refine ⟨fun repeats entries s alive least most once often distinct ranges => ⟨_, _, rfl, rfl, ?_⟩,
    fun s alive => ⟨_, rfl, fun idle => ?_, fun i l n drains opened => ⟨?_, ?_, fun notDown notSilent => ⟨_, rfl, ?_⟩,
      fun runs => ⟨_, rfl, ?_⟩⟩⟩,
    fun i k b l d hl => ⟨fun off => ?_, fun on => ?_, ?_⟩⟩
  · rw [exec_touchdown_taken alive (touchdownOk_iff.2 ⟨⟨least, most⟩, rfl, ⟨once, often⟩, ranges, distinct⟩)]
    refine ⟨fun i l opened => ?_, fun i noneOpen late => ?_, fun noneOpen noneClosed => ?_⟩
    · rw [touchdown_of_open (d := testerHeard s.dev) opened]
      rfl
    · rw [touchdown_of_late (d := testerHeard s.dev) noneOpen late]
      rfl
    · rw [touchdown_of_unarmed (d := testerHeard s.dev) noneOpen noneClosed]
  · rw [exec_idle alive, idle]
    rfl
  · rw [exec_idle alive, drains, Option.isSome_some, if_pos rfl, endDrain_of_open (d := testerHeard s.dev) opened]
  · rw [exec_drainTimer alive (by simp [drains]), endDrain_of_open opened]
  · rw [exec_down alive, takeDown_of_in (d := testerHeard s.dev) notDown notSilent,
      outOfService_of_drain (d := testerHeard s.dev) .down drains, outDevice,
      raiseTesterDown_of_open (d := testerHeard s.dev) opened, endDrain_of_open (i := i) (l := l)]
    exact opened
  · rw [exec_silenceTimer alive runs, outOfService_of_drain .silent drains, outDevice, raiseTesterDown_of_open opened,
      endDrain_of_open (i := i) (l := l)]
    exact opened
  · rw [touchResult_of_disabled off, modifyLot_some _ hl]
    rfl
  · rw [touchResult_of_taken on]
    rfl
  · rw [lateResult, modifyLot_some _ hl]
    rfl

/-! ## The link (R23, R24) -/

theorem exec_up {p : Nat} {s : State} (alive : live s.dev = true) (high : p ≤ 4095) :
    exec (.up p) s = .next (moved s (settle (takeUp p (testerHeard s.dev)))) :=
  exec_of_testerTaken rfl alive (decide_eq_true high)

theorem linkComesUp_eq (p : Nat) (d : Device) : linkComesUp p d = { d with tpt := { d.tpt with
    link := .up, loaded := p, silence := if anyOpen d then some 5000 else none
    query := d.tpt.query.map fun _ => 1000 } } := rfl

theorem upContradicts_eq (p : Nat) {d v : Device}
    (noted : v = raise .tester .corrected .loadMismatch ((openLot d).elim 255 fun e => e.1.val)
      { d with tpt := { d.tpt with loaded := p } }) : upContradicts p d =
    if d.tpt.arm.state ≠ .unarmed ∧ d.tpt.arm.program ≠ p then clearArm v else v := by
  subst noted
  unfold upContradicts
  simp only [armContradicts_iff]
  rfl

/-- Settles O25: DOWN, the silence timer and UP by the link's state. -/
theorem testerLinkChanges : Obligations.TesterLinkChanges := by
  refine ⟨fun s alive => ⟨_, fun d => _, rfl, fun d => rfl, fun out => ?_, fun idle notDown notSilent => ?_,
      fun idle runs => ?_⟩, fun p s alive high => ⟨_, rfl, fun notUp => ?_, fun up agrees => ?_,
      fun up noLoad other => ⟨_, rfl, ?_⟩⟩⟩
  · rw [exec_down alive, takeDown_of_out (d := testerHeard s.dev) out]
    rfl
  · rw [exec_down alive, takeDown_of_in (d := testerHeard s.dev) notDown notSilent,
      outOfService_of_idle (d := testerHeard s.dev) .down idle]
    rfl
  · rw [exec_silenceTimer alive runs, outOfService_of_idle .silent idle]
    rfl
  · rw [exec_up alive high, takeUp, if_pos (show (testerHeard s.dev).tpt.link ≠ .up from notUp), linkComesUp_eq,
      show (testerHeard s.dev).tpt.query = s.dev.tpt.query from if_neg notUp]
    rfl
  · have rests : (testerHeard s.dev).tpt.load.isSome = true ∨ (testerHeard s.dev).tpt.loaded = p :=
      agrees.imp_left Option.isSome_iff_ne_none.2
    rw [exec_up alive high, takeUp, if_neg (show ¬ (testerHeard s.dev).tpt.link ≠ .up from not_not.2 up), if_pos rests]
  · have differs : ¬ ((testerHeard s.dev).tpt.load.isSome = true ∨ (testerHeard s.dev).tpt.loaded = p) := by
      rintro (load | same)
      · exact Option.isSome_iff_ne_none.1 load noLoad
      · exact other same
    rw [exec_up alive high, takeUp, if_neg (show ¬ (testerHeard s.dev).tpt.link ≠ .up from not_not.2 up),
      if_neg differs, upContradicts_eq p rfl]
    rfl

end Sys2Proof.Machine
end

section
/-! Messages refused or dropped, the timers a message restarts, and what a dead device takes (O26). -/

namespace Sys2Proof.Machine

/-! ## Messages of the handler (R40, R41) -/

section
variable {c : Instr} {s : State} {ok : Bool} {carried : Option Nat} {act : Device → Device}

theorem exec_of_handlerTaken (form : exec c s = commit s (onHandler ok carried act s.dev)) (alive : live s.dev = true)
    (good : ok = true) : exec c s = .next (moved s (settle (act (handlerHeard s.dev)))) := by
  rw [form, onHandler, if_pos alive, if_pos good]
  rfl

theorem exec_handlerBadMessage (alive : live s.dev = true) (passed : Bool) : exec (.handlerBadMessage passed carried) s =
    .next (moved s (settle (handlerBad carried (if passed then handlerHeard s.dev else s.dev)))) := by
  show commit s (if live s.dev then _ else s.dev) = _
  rw [if_pos alive]
  rfl

theorem exec_testerBadMessage (alive : live s.dev = true) (passed : Bool) : exec (.testerBadMessage passed) s =
    .next (moved s (settle (testerBad (if passed then testerHeard s.dev else s.dev)))) := by
  show commit s (if live s.dev then _ else s.dev) = _
  rw [if_pos alive]
  rfl

theorem exec_of_handlerBad (form : exec c s = commit s (onHandler ok carried act s.dev)) (alive : live s.dev = true)
    (bad : ok = false) : exec c s = exec (.handlerBadMessage true carried) s := by
  rw [form, onHandler, if_pos alive, bad, exec_handlerBadMessage alive]
  rfl

/-- R40: the device once a PRESENT handler has been heard. -/
def heardPresent (d : Device) : Device := { d with hpt := { d.hpt with absence := some 3000 } }

theorem handlerHeard_of_present {d : Device} (h : d.hpt.presence = .present) : handlerHeard d = heardPresent d :=
  if_pos h

theorem handlerHeard_of_notPresent {d : Device} (h : d.hpt.presence ≠ .present) : handlerHeard d = d := if_neg h

theorem whenPresent_of_present {d : Device} (h : d.hpt.presence = .present) : whenPresent act d = act d := by
  unfold whenPresent
  rw [h]

theorem whenPresent_of_notPresent {d : Device} (h : d.hpt.presence ≠ .present) : whenPresent act d =
    if d.hpt.presence = .leaving then d else raise .handler .note .notDocked (handlerRef none d) d := by
  unfold whenPresent
  cases presence : d.hpt.presence with
  | present => exact absurd presence h
  | empty => rfl
  | absent => rfl
  | leaving => rfl

/-- R41: a message other than HELLO and BYE from a handler that is not PRESENT. -/
theorem exec_of_undocked (form : exec c s = commit s (onHandler ok none (whenPresent act) s.dev))
    (alive : live s.dev = true) (good : ok = true) (h : s.dev.hpt.presence ≠ .present) :
    exec c s = .next (moved s (settle (if s.dev.hpt.presence = .leaving then s.dev
      else raise .handler .note .notDocked (handlerRef none s.dev) s.dev))) := by
  rw [exec_of_handlerTaken form alive good, handlerHeard_of_notPresent h, whenPresent_of_notPresent h]

theorem takeBye_of_undocked {d : Device} (h : d.hpt.presence ≠ .present) (notLeft : d.hpt.leaving = none) : takeBye d =
    if d.hpt.presence = .leaving then d else raise .handler .note .notDocked (handlerRef none d) d := by
  unfold takeBye
  rw [notLeft, if_neg (by simp)]
  cases presence : d.hpt.presence with
  | present => exact absurd presence h
  | empty => rfl
  | absent => rfl
  | leaving => rfl

end

/-! ## A device that takes nothing (R197, logs 6 and 7) -/

section
variable {c : Instr} {s : State} {ok : Bool} {act : Device → Device}

theorem floorLive_of_dead {d : Device} (dead : live d = false) : floorLive d = false := by
  rw [floorLive, dead, Bool.false_and]

theorem exec_of_deadTester (form : exec c s = commit s (onTester ok act s.dev)) (dead : live s.dev = false) :
    exec c s = .next (moved s s.dev) := by
  rw [form, onTester, dead]
  rfl

theorem exec_of_deadHandler {carried : Option Nat} (form : exec c s = commit s (onHandler ok carried act s.dev))
    (dead : live s.dev = false) : exec c s = .next (moved s s.dev) := by
  rw [form, onHandler, dead]
  rfl

theorem exec_of_deadTimer (form : exec c s = commit s (onTimer ok act s.dev)) (dead : live s.dev = false) :
    exec c s = .next (moved s s.dev) := by
  rw [form, onTimer, dead]
  rfl

theorem exec_of_deadBulletin {o : Nat} (form : exec c s = commit s (onBulletin o ok act s.dev))
    (dead : live s.dev = false) : exec c s = .next (moved s s.dev) := by
  rw [form, onBulletin, floorLive_of_dead dead]
  rfl

theorem exec_of_deadAttempt {act : TxSlot → Device → Device} (form : exec c s = commit s (onAttempt act s.dev))
    (dead : live s.dev = false) : exec c s = .next (moved s s.dev) := by
  rw [form, onAttempt]
  cases s.dev.fli.slot with
  | none => rfl
  | some sl =>
    dsimp only
    rw [floorLive_of_dead dead]
    rfl

theorem attemptBegin_of_dead (dead : live s.dev = false) : exec .attemptBegin s = .next (moved s s.dev) := by
  show execAttemptBegin s = _
  unfold execAttemptBegin
  cases s.dev.fli.queue with
  | nil => rfl
  | cons e rest =>
    dsimp only
    rw [attemptOpen, floorLive_of_dead dead]
    rfl

theorem exec_of_dead (event : lineOrTimerEvent c = true) (dead : live s.dev = false) :
    exec c s = .next (moved s s.dev) := by
  have off := floorLive_of_dead dead
  cases c with
  | loaded | loadFail | armed | armFail | touchdown | maskOk | idle | down | up => exact exec_of_deadTester rfl dead
  | hello | state | soaked | soakFail | kitDone | kitFail | index | unitLost | passEnd | bye =>
    exact exec_of_deadHandler rfl dead
  | silenceTimerExpiry | loadTimerExpiry | drainTimerExpiry | testerQueryTimer | absenceTimerExpiry | leavingTimerExpiry
  | soakTimerExpiry | kitChangeTimerExpiry | handlerQueryTimer | periodEnd | statusPeriodTimerExpiry | quietTimerExpiry
  | peerSilenceTimerExpiry | claimTimerExpiry | seekRepeatTimerExpiry | claimWindowExpiry | dockWaitExpiry
  | idleTimerExpiry | delayExpiry => exact exec_of_deadTimer rfl dead
  | holdReceived | liftReceived | claimReceived | dockReceived | parkReceived | seekReceived | statusReceived =>
    exact exec_of_deadBulletin rfl dead
  | arbitrationLost | bulletinSent | transmitError => exact exec_of_deadAttempt rfl dead
  | attemptBegin => exact attemptBegin_of_dead dead
  | testerBadMessage | handlerBadMessage => exact congrArg (commit s) (if_neg (by rw [dead]; decide))
  | runTimeSecond => exact congrArg (commit s) (if_neg (by rw [dead, Bool.false_and]; decide))
  | duplicateStation | floorFrameDropped | lineBusy => exact congrArg (commit s) (if_neg (by rw [off]; decide))
  | _ => cases event

end

/-! ## The fault reference (R40, log 11) -/

theorem handlerRef_of_docked {d : Device} {h : Nat} (docked : dockedHandler d = some h) (c : Option Nat) :
    handlerRef c d = h := by
  unfold handlerRef
  rw [docked]

theorem handlerRef_of_carried {d : Device} (h : Nat) (undocked : dockedHandler d = none) : handlerRef (some h) d = h := by
  unfold handlerRef
  rw [undocked]

theorem handlerRef_of_none {d : Device} (undocked : dockedHandler d = none) :
    handlerRef none d = d.hpt.handler.getD 255 := by
  unfold handlerRef
  rw [undocked]

/-- R40: restarting the absence timer leaves the reference. -/
theorem handlerRef_handlerHeard (c : Option Nat) (d : Device) : handlerRef c (handlerHeard d) = handlerRef c d := by
  unfold handlerHeard
  split <;> rfl

theorem handlerBad_handlerHeard (c : Option Nat) (d : Device) :
    handlerBad c (handlerHeard d) = raise .handler .note .badMessage (handlerRef c d) (handlerHeard d) := by
  rw [handlerBad, handlerRef_handlerHeard]

theorem exec_testerQueryTimer {s : State} (alive : live s.dev = true) (runs : s.dev.tpt.query ≠ none) :
    exec .testerQueryTimer s = .next (moved s (settle (setTpt (fun t => { t with query := some 1000 })
      (sendTester .query s.dev)))) := by
  have taken : exec .testerQueryTimer s = _ := exec_of_timer rfl alive (Option.isSome_iff_ne_none.2 runs)
  exact taken

theorem exec_handlerQueryTimer {s : State} (alive : live s.dev = true) (runs : s.dev.hpt.query ≠ none) :
    exec .handlerQueryTimer s = .next (moved s (settle (setHpt (fun h => { h with query := some 1000 })
      (sendHandler .query s.dev)))) := by
  have taken : exec .handlerQueryTimer s = _ := exec_of_timer rfl alive (Option.isSome_iff_ne_none.2 runs)
  exact taken

/-- Settles O26: the intake of the two lines, case by case. -/
theorem refusedMessagesAndQueries : Obligations.RefusedMessagesAndQueries := by
  refine ⟨fun s alive => ⟨exec_testerBadMessage alive true, exec_testerBadMessage alive false,
      fun carried => ?_, fun carried => exec_handlerBadMessage alive false,
      fun runs => exec_testerQueryTimer alive runs, fun runs => exec_handlerQueryTimer alive runs⟩,
    fun c s alive undocked message => ?_, fun c s alive => ⟨fun bad => ?_, fun bad => ?_, fun h k bad => ?_⟩,
    fun c s event dead => exec_of_dead event dead,
    fun d => ⟨rfl, handlerHeard_of_present, handlerHeard_of_notPresent, rfl, fun c h docked => handlerRef_of_docked docked c,
      handlerRef_of_carried, handlerRef_of_none⟩⟩
  · rw [exec_handlerBadMessage alive, if_pos rfl, handlerBad_handlerHeard]
  · obtain ⟨n, h, rfl⟩ | ⟨n, h, k, rfl⟩ | ⟨n, h, rfl⟩ | ⟨n, h, k, rfl⟩ | ⟨n, h, rfl⟩ | ⟨n, b, h, rfl⟩ | ⟨n, h, rfl⟩ |
      ⟨n, m, h, k, rfl⟩ | ⟨rfl, notLeft⟩ := message
    · exact exec_of_undocked rfl alive (decide_eq_true h) undocked
    · exact exec_of_undocked rfl alive (inRange_eq_true h k) undocked
    · exact exec_of_undocked rfl alive (decide_eq_true h) undocked
    · exact exec_of_undocked rfl alive (inRange_eq_true h k) undocked
    · exact exec_of_undocked rfl alive (decide_eq_true h) undocked
    · exact exec_of_undocked rfl alive (decide_eq_true h) undocked
    · exact exec_of_undocked rfl alive (decide_eq_true h) undocked
    · exact exec_of_undocked rfl alive (Bool.and_eq_true_iff.2 ⟨decide_eq_true h, decide_eq_true k⟩) undocked
    · rw [exec_of_handlerTaken (c := .bye) rfl alive rfl, handlerHeard_of_notPresent undocked,
        takeBye_of_undocked undocked notLeft]
  · obtain ⟨n, h, rfl⟩ | ⟨n, h, rfl | rfl⟩ | ⟨n, h, rfl⟩ := bad
    · exact exec_of_testerBad rfl alive (inRange_eq_false (by omega))
    · exact exec_of_testerBad rfl alive (decide_eq_false (by omega))
    · exact exec_of_testerBad rfl alive (decide_eq_false (by omega))
    · exact exec_of_testerBad rfl alive (decide_eq_false (by omega))
  · obtain ⟨n, h, rfl⟩ | ⟨n, h, rfl⟩ | ⟨n, h, rfl⟩ | ⟨n, h, rfl⟩ | ⟨n, h, rfl⟩ | ⟨n, b, h, rfl⟩ | ⟨n, h, rfl⟩ |
      ⟨n, m, h, rfl⟩ := bad
    · exact exec_of_handlerBad rfl alive (decide_eq_false (by omega))
    · exact exec_of_handlerBad rfl alive (inRange_eq_false (by omega))
    · exact exec_of_handlerBad rfl alive (decide_eq_false (by omega))
    · exact exec_of_handlerBad rfl alive (inRange_eq_false (by omega))
    · exact exec_of_handlerBad rfl alive (decide_eq_false (by omega))
    · exact exec_of_handlerBad rfl alive (decide_eq_false (by omega))
    · exact exec_of_handlerBad rfl alive (decide_eq_false (by omega))
    · refine exec_of_handlerBad rfl alive (Bool.and_eq_false_iff.2 (h.imp (fun h => ?_) fun h => ?_))
      · exact decide_eq_false (by omega)
      · exact decide_eq_false (not_le.2 h)
  · refine exec_of_handlerBad rfl alive (Bool.and_eq_false_iff.2 ?_)
    by_cases kit : 255 < k
    · exact .inr (decide_eq_false (not_le.2 kit))
    · exact .inl (inRange_eq_false (by omega))

end Sys2Proof.Machine
end

section
/-! The handler comes and goes (O27): HELLO by the presence, BYE and the dock timers, and the need at a dock. -/

namespace Sys2Proof.Machine

/-! ## HELLO (R42, R100, R142) -/

section
variable {h k : Nat} {s : State} {d : Device}

theorem exec_hello (alive : live s.dev = true) (low : 1 ≤ h) (high : h ≤ 48) (kit : k ≤ 255) :
    exec (.hello h k) s = .next (moved s (settle (takeHello h k (handlerHeard s.dev)))) :=
  exec_of_handlerTaken rfl alive (Bool.and_eq_true_iff.2 ⟨inRange_eq_true low high, decide_eq_true kit⟩)

theorem takeHello_of_empty (presence : d.hpt.presence = .empty) : takeHello h k d = dock h k d := by
  unfold takeHello
  rw [presence]

theorem takeHello_of_present (presence : d.hpt.presence = .present) :
    takeHello h k d = if d.hpt.handler = some h ∧ d.hpt.kit = k then d else changeDock h k d := by
  unfold takeHello
  rw [presence]

theorem takeHello_of_absent (presence : d.hpt.presence = .absent) :
    takeHello h k d = if d.hpt.handler = some h ∧ d.hpt.kit = k then dockReturn h k d else changeDock h k d := by
  unfold takeHello
  rw [presence]

theorem takeHello_of_leaving (presence : d.hpt.presence = .leaving) : takeHello h k d =
    if d.hpt.handler = some h then raise .handler .note .unexpected h d else dock h k (handlerGone d) := by
  unfold takeHello
  rw [presence]

/-- R42: a return leaves handler and kit of the dock record. -/
theorem dockReturn_eq (handler : d.hpt.handler = some h) (kit : d.hpt.kit = k) : dockReturn h k d = { d with hpt := { d.hpt with
    presence := .present, absence := some 3000, soaked := none
    soakHeard := false, soak := none, kitChange := none, capAcc := 0, capFirst := false, capSpoiled := true } } := by
  subst kit
  rw [dockReturn, becomePresent, ← handler]
  rfl

theorem changeDock_eq {o : Nat} (handler : d.hpt.handler = some o) : changeDock h k d =
    dockChanged h (reportDock h k (if o = h then becomePresent h k d
      else stopIdle (setEntry o (entryUnknown (entryAt (becomePresent h k d) o)) (becomePresent h k d)))) := by
  rw [changeDock, handler]
  rfl

end

/-- R42, R142: a change of dock, from PRESENT or ABSENT. -/
theorem takeHello_of_change {h k o : Nat} {d : Device} (presence : d.hpt.presence = .present ∨ d.hpt.presence = .absent)
    (handler : d.hpt.handler = some o) (other : ¬ (o = h ∧ d.hpt.kit = k)) : takeHello h k (handlerHeard d) =
      dockChanged h (reportDock h k (if o = h then becomePresent h k d
        else stopIdle (setEntry o (entryUnknown (entryAt (becomePresent h k d) o)) (becomePresent h k d)))) := by
  have differs : ¬ (d.hpt.handler = some h ∧ d.hpt.kit = k) := by simpa [handler] using other
  rcases presence with presence | presence
  · rw [handlerHeard_of_present presence, takeHello_of_present (d := heardPresent d) presence,
      if_neg (show ¬ ((heardPresent d).hpt.handler = some h ∧ (heardPresent d).hpt.kit = k) from differs),
      changeDock_eq (d := heardPresent d) handler]
    rfl
  · rw [handlerHeard_of_notPresent (by simp [presence]), takeHello_of_absent presence, if_neg differs,
      changeDock_eq handler]

/-! ## The need at a dock (R151) -/

section
variable {h : Nat} {d : Device}

theorem ownDockNeed_of_won {t : Nat} (state : d.asu.need.state = .won) (target : d.asu.need.target = some t) :
    ownDockNeed h d = needAfterDock (if t = h then d else releaseWon t d) := by
  unfold ownDockNeed
  rw [state, target]

theorem ownDockNeed_of_claiming (state : d.asu.need.state = .claiming) (target : d.asu.need.target = some h) :
    ownDockNeed h d = needAfterDock (removeClaim d) := by
  unfold ownDockNeed
  rw [state, target]
  exact if_pos rfl

theorem ownDockNeed_of_other (notWon : d.asu.need.state ≠ .won)
    (other : d.asu.need.state ≠ .claiming ∨ d.asu.need.target ≠ some h) : ownDockNeed h d = d := by
  unfold ownDockNeed
  split
  · rename_i state _
    exact absurd state notWon
  · rename_i state target
    refine if_neg ?_
    rintro rfl
    exact other.elim (· state) (· target)
  · rfl

theorem needAfterDock_eq (d : Device) :
    needAfterDock d = if needExists d = true then toSeeking d else setNeed .idle d := rfl

theorem dockChanged_of_none (noneOpen : openLot d = none) : dockChanged h d = d := by
  unfold dockChanged
  rw [noneOpen]

theorem dockChanged_of_open {i : Fin 8} {l : Lot} (opened : openLot d = some (i, l)) : dockChanged h d =
    if l.state = .running ∨ l.state = .retest then restage i (raise .handler .note .dockChanged h d)
    else raise .handler .note .dockChanged h d := by
  unfold dockChanged
  rw [opened]

end

/-! ## BYE and the dock timers (R43, R44) -/

section
variable {s : State} {d : Device} {h : Nat}

theorem exec_bye (alive : live s.dev = true) :
    exec .bye s = .next (moved s (settle (takeBye (handlerHeard s.dev)))) := exec_of_handlerTaken rfl alive rfl

theorem exec_absenceTimer (alive : live s.dev = true) (runs : s.dev.hpt.absence ≠ none) :
    exec .absenceTimerExpiry s = .next (moved s (settle (becomeAbsent s.dev))) :=
  exec_of_timer rfl alive (Option.isSome_iff_ne_none.2 runs)

theorem exec_leavingTimer (alive : live s.dev = true) (runs : s.dev.hpt.leaving ≠ none) :
    exec .leavingTimerExpiry s = .next (moved s (settle (leavingEnds s.dev))) :=
  exec_of_timer rfl alive (Option.isSome_iff_ne_none.2 runs)

theorem takeBye_of_present (presence : d.hpt.presence = .present) (notLeft : d.hpt.leaving = none) :
    takeBye d = becomeAbsent d := by
  unfold takeBye
  rw [notLeft, if_neg (by simp), presence]

theorem takeBye_of_leaving (left : d.hpt.leaving ≠ none) : takeBye d = leavingEnds d :=
  if_pos (Option.isSome_iff_ne_none.2 left)

theorem dockedHandler_of_present (presence : d.hpt.presence = .present) (handler : d.hpt.handler = some h) :
    dockedHandler d = some h := by
  rw [dockedHandler, if_pos (.inl presence), handler]

theorem becomeAbsent_eq (docked : dockedHandler d = some h) : becomeAbsent d =
    raise .handler (if anyOpen d then .uncorrected else .note) .handlerAbsent h
      { d with hpt := { d.hpt with
        presence := .absent, absence := none, soaked := none, soak := none, kitChange := none
        capAcc := 0, capFirst := false, capSpoiled := true } } := by
  unfold becomeAbsent
  dsimp only
  rw [handlerRef_of_docked docked]
  cases opened : anyOpen d with
  | true => exact if_pos opened
  | false => exact if_neg (show ¬ anyOpen d = true by simp [opened])

theorem leavingEnds_of_leaving (presence : d.hpt.presence = .leaving) :
    leavingEnds d = handlerGone (setHpt (fun h => { h with leaving := none }) d) := if_pos presence

theorem leavingEnds_of_other (presence : d.hpt.presence ≠ .leaving) :
    leavingEnds d = setHpt (fun h => { h with leaving := none }) d := if_neg presence

end

/-- R143: the own parked list keeps the last 4. -/
theorem joinParked_eq (h : Nat) (d : Device) {l : List Nat} (joined : l = d.asu.parked.filter (· ≠ h) ++ [h]) :
    joinParked h d = { d with asu := { d.asu with parked := l.drop (l.length - 4) } } := by
  have others : (fun x : Nat => x != h) = fun x => decide (x ≠ h) := by
    funext x
    by_cases same : x = h <;> simp [same]
  rw [joinParked, others, joined]

/-- Settles O27: HELLO by the presence and the dock record, and each of the operations. -/
theorem handlerComesAndGoes : Obligations.HandlerComesAndGoes := by
  refine ⟨fun h k s alive low high kit => ⟨fun presence => ⟨_, _, rfl, rfl, ?_⟩, fun presence handler same => ?_,
      fun presence handler same => ?_, fun presence handler => ?_,
      fun o handler change => ⟨_, _, _, _, rfl, rfl, rfl, fun _ => rfl, rfl, _, rfl, ?_⟩⟩,
    fun s alive => ⟨fun h presence handler notLeft => ⟨_, rfl, ?_, fun runs => ?_⟩,
      fun presence left => ⟨_, rfl, ?_, ?_⟩⟩,
    fun h d => ⟨dockChanged_of_none, fun i l opened => ⟨_, rfl, fun testing => ?_, fun notRunning notRetest => ?_⟩⟩,
    fun h d => ⟨fun t => ownDockNeed_of_won, ownDockNeed_of_claiming, ownDockNeed_of_other⟩,
    fun d => ⟨_, needExists_iff d, fun needed => ?_, fun notNeeded => ?_⟩,
    fun h k g d => ⟨rfl, _, rfl, joinParked_eq h d rfl⟩, fun h g d => ⟨rfl, rfl⟩,
    fun s alive notLeaving left => ⟨?_, ?_⟩⟩
  · rw [exec_hello alive low high kit, handlerHeard_of_notPresent (by simp [presence]), takeHello_of_empty presence]
    rfl
  · rw [exec_hello alive low high kit, handlerHeard_of_present presence,
      takeHello_of_present (d := heardPresent s.dev) presence, if_pos ⟨handler, same⟩]
    rfl
  · rw [exec_hello alive low high kit, handlerHeard_of_notPresent (by simp [presence]), takeHello_of_absent presence,
      if_pos ⟨handler, same⟩, dockReturn_eq handler same]
  · rw [exec_hello alive low high kit, handlerHeard_of_notPresent (by simp [presence]), takeHello_of_leaving presence,
      if_pos handler]
  · rcases change with ⟨presence, other⟩ | ⟨presence, other⟩
    · have notSame : ¬ s.dev.hpt.handler = some h := by simpa [handler] using other
      rw [exec_hello alive low high kit, handlerHeard_of_notPresent (by simp [presence]), takeHello_of_leaving presence,
        if_neg notSame]
      simp only [presence, if_true, true_or]
      rfl
    · have notLeaving : s.dev.hpt.presence ≠ .leaving := by rcases presence with p | p <;> simp [p]
      rw [exec_hello alive low high kit, takeHello_of_change presence handler other]
      simp only [notLeaving, if_false, false_or]
      by_cases same : o = h
      · rw [if_pos same, if_pos same]
        rfl
      · rw [if_neg same, if_neg same]
        rfl
  · rw [exec_bye alive, handlerHeard_of_present presence,
      takeBye_of_present (d := heardPresent s.dev) presence notLeft,
      becomeAbsent_eq (d := heardPresent s.dev) (dockedHandler_of_present presence handler)]
    rfl
  · rw [exec_absenceTimer alive runs, becomeAbsent_eq (dockedHandler_of_present presence handler)]
  · rw [exec_bye alive, handlerHeard_of_notPresent (by simp [presence]), takeBye_of_leaving left,
      leavingEnds_of_leaving presence]
    rfl
  · rw [exec_leavingTimer alive left, leavingEnds_of_leaving presence]
    rfl
  · rw [dockChanged_of_open opened, if_pos testing]
  · rw [dockChanged_of_open opened, if_neg (not_or.2 ⟨notRunning, notRetest⟩)]
  · rw [needAfterDock_eq, if_pos needed]
  · rw [needAfterDock_eq, if_neg notNeeded]
  · by_cases presence : s.dev.hpt.presence = .present
    · rw [exec_bye alive, handlerHeard_of_present presence, takeBye_of_leaving (d := heardPresent s.dev) left,
        leavingEnds_of_other (d := heardPresent s.dev) notLeaving, if_pos presence]
      rfl
    · rw [exec_bye alive, handlerHeard_of_notPresent presence, takeBye_of_leaving left, leavingEnds_of_other notLeaving,
        if_neg presence]
      rfl
  · rw [exec_leavingTimer alive left, leavingEnds_of_other notLeaving]
    rfl

end Sys2Proof.Machine
end

section
/-! The reports of a PRESENT handler (O28 to O30), READY and the run time (O31). -/

namespace Sys2Proof.Machine

theorem exec_of_present {c : Instr} {s : State} {ok : Bool} {act : Device → Device}
    (form : exec c s = commit s (onHandler ok none (whenPresent act) s.dev)) (alive : live s.dev = true) (good : ok = true)
    (presence : s.dev.hpt.presence = .present) : exec c s = .next (moved s (settle (act (heardPresent s.dev)))) := by
  rw [exec_of_handlerTaken form alive good, handlerHeard_of_present presence,
    whenPresent_of_present (d := heardPresent s.dev) presence]

/-! ## Soak (R46, R47) -/

section
variable {d : Device} {temp : Nat} {k : Soak}

theorem takeState_eq (temp : Nat) (d : Device) : takeState temp d = { d with hpt := { d.hpt with
    soakHeard := true, soaked := if d.hpt.soak = none then tempOfCode temp else d.hpt.soaked } } := by
  unfold takeState
  cases soak : d.hpt.soak with
  | none => simp only [setHpt, soak, Option.isSome_none, Bool.false_eq_true, if_false, if_true]
  | some k => simp only [setHpt, soak, Option.isSome_some, if_true, reduceCtorEq, if_false]

theorem takeSoaked_of_none (idle : d.hpt.soak = none) : takeSoaked temp d =
    { d with hpt := { d.hpt with soakHeard := true, soaked := tempOfCode temp } } := by
  unfold takeSoaked
  dsimp only
  rw [show (setHpt (fun h => { h with soakHeard := true }) d).hpt.soak = none from idle]
  rfl

theorem takeSoaked_of_class (soak : d.hpt.soak = some k) (same : tempOfCode temp = some k.cls) : takeSoaked temp d =
    { d with hpt := { d.hpt with
      soakHeard := true, soaked := some k.cls, soak := none
      soakBlocked := if d.hpt.soakBlocked = some k.lot then none else d.hpt.soakBlocked } } := by
  unfold takeSoaked
  dsimp only
  rw [show (setHpt (fun h => { h with soakHeard := true }) d).hpt.soak = some k from soak]
  dsimp only
  rw [if_pos same, same]
  rfl

theorem takeSoaked_of_other (soak : d.hpt.soak = some k) (other : tempOfCode temp ≠ some k.cls) : takeSoaked temp d =
    raise .handler .note .unexpected (handlerRef none d) { d with hpt := { d.hpt with soakHeard := true } } := by
  unfold takeSoaked
  dsimp only
  rw [show (setHpt (fun h => { h with soakHeard := true }) d).hpt.soak = some k from soak]
  dsimp only
  rw [if_neg other]
  rfl

end

section
variable {s : State} {code : Nat}

theorem exec_soakFail (alive : live s.dev = true) (presence : s.dev.hpt.presence = .present) (byte : code ≤ 255) :
    exec (.soakFail code) s = .next (moved s (settle (s.dev.hpt.soak.elim (handlerNote .unexpected (heardPresent s.dev))
      fun k => soakFails k (heardPresent s.dev)))) := by
  have taken : exec (.soakFail code) s = _ := exec_of_present rfl alive (decide_eq_true byte) presence
  rw [taken]
  cases soak : s.dev.hpt.soak with
  | none =>
    rw [show (heardPresent s.dev).hpt.soak = none from soak]
    rfl
  | some k =>
    rw [show (heardPresent s.dev).hpt.soak = some k from soak]
    rfl

theorem exec_soakTimer (alive : live s.dev = true) {k : Soak} (soak : s.dev.hpt.soak = some k) :
    exec .soakTimerExpiry s = .next (moved s (settle (soakFails k s.dev))) := by
  have taken : exec .soakTimerExpiry s = _ := exec_of_timer rfl alive (by rw [soak]; rfl)
  rw [taken, soak]

/-! ## Kit change (R49, R50, R142, R152) -/

theorem exec_kitDone {k : Nat} (alive : live s.dev = true) (presence : s.dev.hpt.presence = .present) (low : 1 ≤ k)
    (high : k ≤ 255) : exec (.kitDone k) s = .next (moved s (settle (s.dev.hpt.kitChange.elim
      (kitDoneUnexpected k (heardPresent s.dev)) fun c => kitChangeDone c k (heardPresent s.dev)))) := by
  have taken : exec (.kitDone k) s = _ := exec_of_present rfl alive (inRange_eq_true low high) presence
  rw [taken, takeKitDone]
  cases change : s.dev.hpt.kitChange with
  | none =>
    rw [show (heardPresent s.dev).hpt.kitChange = none from change]
    rfl
  | some c =>
    rw [show (heardPresent s.dev).hpt.kitChange = some c from change]
    rfl

theorem exec_kitFail (alive : live s.dev = true) (presence : s.dev.hpt.presence = .present) (byte : code ≤ 255) :
    exec (.kitFail code) s = .next (moved s (settle (if s.dev.hpt.kitChange.isSome then
      kitChangeFails .kitFail (heardPresent s.dev) else handlerNote .unexpected (heardPresent s.dev)))) := by
  have taken : exec (.kitFail code) s = _ := exec_of_present rfl alive (decide_eq_true byte) presence
  exact taken

theorem exec_kitTimer (alive : live s.dev = true) {c : KitChange} (change : s.dev.hpt.kitChange = some c) :
    exec .kitChangeTimerExpiry s = .next (moved s (settle (kitChangeFails .kitTimeout s.dev))) :=
  exec_of_timer rfl alive (by rw [change]; rfl)

end

theorem reportKit_of_none {k : Nat} {d : Device} (undocked : dockedHandler d = none) : reportKit k d = d := by
  unfold reportKit
  rw [undocked]

theorem reportKit_of_docked {k h : Nat} {d : Device} (docked : dockedHandler d = some h) : reportKit k d =
    offer (.dock h k (entryAt d h).grade) (setEntry h { entryAt d h with kit := k } d) := by
  unfold reportKit
  rw [docked]

theorem kitDoneUnexpected_of_open {k : Nat} {d : Device} (opened : anyOpen d = true) :
    kitDoneUnexpected k d = handlerNote .unexpected d := if_pos opened

theorem kitDoneUnexpected_of_closed {k : Nat} {d : Device} (closed : anyOpen d = false) : kitDoneUnexpected k d =
    reportKit k (setHpt (fun h => { h with kit := k, soaked := none }) (handlerNote .unexpected d)) :=
  if_neg (show ¬ anyOpen d = true by simp [closed])

/-- Settles O28: the soak and kit change reports by what is in flight. -/
theorem soakAndKitChangeReports : Obligations.SoakAndKitChangeReports := by
  refine ⟨fun s alive presence => ⟨_, (handlerHeard_of_present presence).symm, fun temp byte => ?_,
      fun temp low high => ⟨fun idle => ?_, fun k soak same => ?_, fun k soak other => ?_⟩,
      fun k soak => ⟨fun code byte => ?_, exec_soakTimer alive soak⟩, fun idle code byte => ?_⟩,
    fun s alive presence => ⟨_, (handlerHeard_of_present presence).symm,
      fun c k change low high => ⟨_, rfl, fun same => ?_, fun other => ?_⟩,
      fun c change => ⟨fun code byte => ?_, exec_kitTimer alive change⟩,
      fun idle => ⟨_, rfl, fun code byte => ?_, fun k low high => ⟨fun opened => ?_, fun closed => ?_⟩⟩⟩,
    fun k d => ⟨reportKit_of_none, fun h => reportKit_of_docked, fun changing => if_pos changing,
      fun other => if_neg other⟩⟩
  · have taken : exec (.state temp) s = _ := exec_of_present rfl alive (decide_eq_true byte) presence
    rw [taken, takeState_eq]
    rfl
  · have taken : exec (.soaked temp) s = _ := exec_of_present rfl alive (inRange_eq_true low high) presence
    rw [taken, takeSoaked_of_none (d := heardPresent s.dev) idle]
  · have taken : exec (.soaked temp) s = _ := exec_of_present rfl alive (inRange_eq_true low high) presence
    rw [taken, takeSoaked_of_class (d := heardPresent s.dev) soak same]
    rfl
  · have taken : exec (.soaked temp) s = _ := exec_of_present rfl alive (inRange_eq_true low high) presence
    rw [taken, takeSoaked_of_other (d := heardPresent s.dev) soak other]
    rfl
  · rw [exec_soakFail alive presence byte, soak]
    rfl
  · rw [exec_soakFail alive presence byte, idle]
    rfl
  · rw [exec_kitDone alive presence low high, change, Option.elim_some, kitChangeDone, if_pos same]
    rfl
  · rw [exec_kitDone alive presence low high, change, Option.elim_some, kitChangeDone, if_neg other]
    rfl
  · rw [exec_kitFail alive presence byte, change]
    rfl
  · rw [exec_kitFail alive presence byte, idle]
    rfl
  · rw [exec_kitDone alive presence low high, idle, Option.elim_none,
      kitDoneUnexpected_of_open (d := heardPresent s.dev) opened]
    rfl
  · rw [exec_kitDone alive presence low high, idle, Option.elim_none,
      kitDoneUnexpected_of_closed (d := heardPresent s.dev) closed]
    rfl

/-! ## Index records and lost units (R54, R57, R104) -/

/-- R57, R104: what a judged interval leaves of TPM. -/
theorem tpmInterval_eq (interval : Nat) (d : Device) : tpmInterval interval d = { d with tpm := { d.tpm with
    jams := if (cfg d).jamThreshold * 100 ≤ interval then min 255 (d.tpm.jams + 1) else d.tpm.jams } } := by
  unfold tpmInterval
  split <;> rfl

theorem takeIndex_of_continued (v : Nat) (d : Device) : takeIndex v true d =
    { d with hpt := { d.hpt with capAcc := min 16777215 (d.hpt.capAcc + v) } } := rfl

theorem takeIndex_of_complete (v : Nat) (d : Device) {a : Nat} (sum : a = min 16777215 (d.hpt.capAcc + v)) :
    takeIndex v false d = { d with
      hpt := { d.hpt with capAcc := 0, capFirst := false, capSpoiled := !d.hpt.effRun }
      tpm := { d.tpm with
        jams := if d.hpt.capSpoiled = false ∧ d.hpt.capFirst = false ∧ (cfg d).jamThreshold * 100 ≤ a then
          min 255 (d.tpm.jams + 1) else d.tpm.jams } } := by
  subst sum
  show setHpt captureAfter (if (!d.hpt.capSpoiled && !d.hpt.capFirst) = true then
    tpmInterval (min 16777215 (d.hpt.capAcc + v))
      { d with hpt := { d.hpt with capAcc := min 16777215 (d.hpt.capAcc + v) } }
    else { d with hpt := { d.hpt with capAcc := min 16777215 (d.hpt.capAcc + v) } }) = _
  have handed : (!d.hpt.capSpoiled && !d.hpt.capFirst) = true ↔ d.hpt.capSpoiled = false ∧ d.hpt.capFirst = false := by
    simp
  by_cases clean : d.hpt.capSpoiled = false ∧ d.hpt.capFirst = false
  · rw [if_pos (handed.2 clean), tpmInterval_eq]
    simp only [clean, true_and]
    rfl
  · have notJudged (p : Prop) : ¬ (d.hpt.capSpoiled = false ∧ d.hpt.capFirst = false ∧ p) :=
      fun ⟨spoiled, first, _⟩ => clean ⟨spoiled, first⟩
    rw [if_neg (handed.not.2 clean), if_neg (notJudged _)]
    rfl

section
variable {site : Nat} {d : Device} {i : Fin 8}

theorem takeUnitLost_of_open {l : Lot} (opened : openLot d = some (i, l)) :
    takeUnitLost site d = openResult i (toSite site) 0 d := by
  unfold takeUnitLost
  rw [opened]

theorem takeUnitLost_of_late (noneOpen : openLot d = none) (late : lastClosedSlot d = some i) :
    takeUnitLost site d = lateResult i d := by
  unfold takeUnitLost
  rw [noneOpen, late]

theorem takeUnitLost_of_none (noneOpen : openLot d = none) (noneClosed : lastClosedSlot d = none) :
    takeUnitLost site d = handlerNote .unexpected d := by
  unfold takeUnitLost
  rw [noneOpen, noneClosed]

end

/-- Settles O29: INDEX with and without its flag, UNIT_LOST by what is open or last closed. -/
theorem indexRecordsAndLostUnits : Obligations.IndexRecordsAndLostUnits := by
  refine ⟨fun v s alive presence range => ⟨_, _, (handlerHeard_of_present presence).symm, rfl, ?_, ?_⟩,
    fun site s alive presence range => ⟨_, (handlerHeard_of_present presence).symm, ?_⟩⟩
  · have taken : exec (.index v true) s = _ := exec_of_present rfl alive (decide_eq_true range) presence
    rw [taken, takeIndex_of_continued]
    rfl
  · have taken : exec (.index v false) s = _ := exec_of_present rfl alive (decide_eq_true range) presence
    rw [taken, takeIndex_of_complete v _ rfl]
    rfl
  · have taken : exec (.unitLost site) s = _ := exec_of_present rfl alive (decide_eq_true range) presence
    rw [taken]
    refine ⟨fun i l opened => ?_, fun i noneOpen late => ?_, fun noneOpen noneClosed => ?_⟩
    · rw [takeUnitLost_of_open (d := heardPresent s.dev) opened]
      rfl
    · rw [takeUnitLost_of_late (d := heardPresent s.dev) noneOpen late]
    · rw [takeUnitLost_of_none (d := heardPresent s.dev) noneOpen noneClosed]
      rfl

/-! ## The pass end (R15, R53, R68) -/

theorem passEndAccepted_iff (d : Device) (l : Lot) (p : Nat) : passEndAccepted d l p = true ↔
    l.step = some (.pass p) ∧ d.hpt.pass = some p ∧ d.hpt.presence = .present ∧ d.hpt.handler = d.hpt.passHandler := by
  simp [passEndAccepted, and_assoc]

section
variable {i : Fin 8} {k : Nat} {l : Lot} {d : Device}

theorem takePassEnd_of_open {p fed : Nat} (opened : openLot d = some (i, l)) : takePassEnd p fed d =
    if passEndAccepted d l p then acceptPassEnd i l p fed d else handlerNote .badMessage d := by
  unfold takePassEnd
  rw [opened]

theorem takePassEnd_of_none {p fed : Nat} (noneOpen : openLot d = none) :
    takePassEnd p fed d = handlerNote .badMessage d := by
  unfold takePassEnd
  rw [noneOpen]

theorem advancePass_of_owed (hl : lotAt d i = some l) (owed : 0 < l.acc.pendingNow)
    (under : k < (currentEntry l).retests) :
    advancePass i k d = enterNextPass i k (putLot i (some (nextPass k l)) d) := by
  unfold advancePass
  rw [hl]
  exact if_pos ⟨owed, under⟩

theorem advancePass_of_last (hl : lotAt d i = some l) (last : l.acc.pendingNow = 0 ∨ (currentEntry l).retests ≤ k) :
    advancePass i k d = enterDrain i d := by
  unfold advancePass
  rw [hl]
  exact if_neg (by omega)

theorem enterNextPass_of_testing (hl : lotAt d i = some l) (testing : l.state = .running ∨ l.state = .retest) :
    enterNextPass i k d = enterPass i l (k + 1) d := by
  unfold enterNextPass
  rw [hl]
  exact if_pos testing

theorem enterNextPass_of_held (hl : lotAt d i = some l) (held : l.state = .held)
    (resume : l.resume = some .running ∨ l.resume = some (.retest k)) :
    enterNextPass i k d = putLot i (some { l with resume := some (.retest (k + 1)) }) d := by
  unfold enterNextPass
  rw [hl]
  dsimp only
  rw [if_neg (by simp [held]), if_pos ⟨held, resume⟩]

theorem enterNextPass_of_staging (hl : lotAt d i = some l) (staging : l.state = .staging) : enterNextPass i k d = d := by
  unfold enterNextPass
  rw [hl]
  dsimp only
  rw [if_neg (by simp [staging]), if_neg (by simp [staging])]

theorem enterDrain_of_held (hl : lotAt d i = some l) (held : l.state = .held) : enterDrain i d =
    startDrain { l with step := some .drain, resume := some .closing }
      (putLot i (some { l with step := some .drain, resume := some .closing }) d) := by
  unfold enterDrain
  rw [hl]
  exact if_pos held

theorem enterDrain_of_notHeld (hl : lotAt d i = some l) (notHeld : l.state ≠ .held) :
    enterDrain i d = enterClosing i d := by
  unfold enterDrain
  rw [hl]
  exact if_neg notHeld

end

/-- Settles O30: PASS_END by R53's conditions, and the advance of the lot by its state. -/
theorem passEndAdvancesTheLot : Obligations.PassEndAdvancesTheLot := by
  refine ⟨fun p fed s alive presence range fits => ⟨_, (handlerHeard_of_present presence).symm, ?_⟩,
    fun i k l d hl => ⟨_, rfl, fun owed under testing => ?_, fun owed under held resume => ?_,
      fun owed under staging => ?_, fun last notHeld => ⟨_, rfl, ?_⟩, fun last held => ⟨_, rfl, ?_⟩⟩⟩
  · have taken : exec (.passEnd p fed) s = _ := exec_of_present rfl alive
      (Bool.and_eq_true_iff.2 ⟨decide_eq_true range, decide_eq_true fits⟩) presence
    rw [taken]
    refine ⟨fun i l opened step pass handler => ⟨_, rfl, fun same => ?_, fun other => ?_⟩, fun refused => ?_⟩
    · rw [takePassEnd_of_open (d := heardPresent s.dev) opened,
        if_pos ((passEndAccepted_iff (heardPresent s.dev) l p).2 ⟨step, pass, presence, handler⟩), acceptPassEnd,
        if_neg (show ¬ (fed ≠ (heardPresent s.dev).hpt.intake) from not_not.2 same)]
      rfl
    · rw [takePassEnd_of_open (d := heardPresent s.dev) opened,
        if_pos ((passEndAccepted_iff (heardPresent s.dev) l p).2 ⟨step, pass, presence, handler⟩), acceptPassEnd,
        if_pos (show fed ≠ (heardPresent s.dev).hpt.intake from other)]
      rfl
    · cases opened : openLot s.dev with
      | none =>
        rw [takePassEnd_of_none (d := heardPresent s.dev) opened]
        rfl
      | some e =>
        obtain ⟨i, l⟩ := e
        rw [takePassEnd_of_open (d := heardPresent s.dev) opened, if_neg]
        · rfl
        · rw [passEndAccepted_iff]
          exact fun ⟨step, pass, _, handler⟩ => refused i l opened ⟨step, pass, handler⟩
  · rw [advancePass_of_owed hl owed under, enterNextPass_of_testing (l := nextPass k l) (lotAt_putLot_same ..) testing,
      enterPass_of_new (lotAt_putLot_same ..) _ rfl]
    exact putLot_putLot i (some (nextPass k l)) _
      (setHpt (fun h => { h with pass := some (k + 1), passHandler := h.handler, intake := 0 })
        (sendHandler (.startPass (k + 1) l.acc.pendingNow) d))
  · rw [advancePass_of_owed hl owed under, enterNextPass_of_held (l := nextPass k l) (lotAt_putLot_same ..) held resume, putLot_putLot]
    rfl
  · rw [advancePass_of_owed hl owed under, enterNextPass_of_staging (l := nextPass k l) (lotAt_putLot_same ..) staging]
    rfl
  · rw [advancePass_of_last hl last, enterDrain_of_notHeld hl notHeld, enterClosing_eq hl]
    rfl
  · rw [advancePass_of_last hl last, enterDrain_of_held hl held]

/-! ## READY and the run time (R55, R56, R101, R102, R111, R208) -/

theorem gateFor_iff (d : Device) (l : Lot) : gateFor d l = true ↔
    (l.state = .running ∨ l.state = .retest) ∧ armedFor d l = true ∧ d.hpt.presence = .present ∧
      d.hpt.soaked = some (currentEntry l).temp ∧ bankUncorrected d.ctp.handlerBank = false ∧
      bankUncorrected d.ctp.testerBank = false := by
  simp [gateFor, soakedAt, and_assoc]

theorem feedGate_iff (d : Device) : feedGate d = true ↔
    live d = true ∧ ∃ i l, openLot d = some (i, l) ∧ gateFor d l = true := by
  simp only [feedGate, Bool.and_eq_true, Option.any_eq_true, Prod.exists]

theorem bankSevere_iff (b : FaultBank) : bankSevere b = true ↔ ∃ r, b.record = some r ∧ r.severity ≠ .note := by
  simp [bankSevere, Option.any_eq_true]

theorem attnBank_iff (d : Device) :
    attnBank d = true ↔ ∃ n r, (bank d n).record = some r ∧ r.severity ≠ .note := by
  simp only [attnBank, Bool.or_eq_true, bankSevere_iff]
  constructor
  · rintro (((h | h) | h) | h)
    · exact ⟨.floor, h⟩
    · exact ⟨.handler, h⟩
    · exact ⟨.tester, h⟩
    · exact ⟨.accounting, h⟩
  · rintro ⟨n, h⟩
    cases n with
    | floor => exact .inl (.inl (.inl h))
    | handler => exact .inl (.inl (.inr h))
    | tester => exact .inl (.inr h)
    | accounting => exact .inr h

theorem attnUnseen_iff (d : Device) : attnUnseen d = true ↔ ∃ i l, lotAt d i = some l ∧ l.unseen = true := by
  simp only [attnUnseen, List.any_eq_true, Prod.exists, mem_lotList]

theorem attnReady_iff (d : Device) : attnReady d = true ↔ ∃ r ∈ d.rlu.records, r.state = .ready := by
  simp [attnReady]

theorem attnLevel_iff (d : Device) : attnLevel d = true ↔ d.ctp.hold ≠ .powerOn ∧
    ((∃ n r, (bank d n).record = some r ∧ r.severity ≠ .note) ∨
      (∃ i l, lotAt d i = some l ∧ l.unseen = true) ∨ ∃ r ∈ d.rlu.records, r.state = .ready) := by
  simp only [attnLevel, Bool.and_eq_true, bne_iff_ne, Bool.or_eq_true, attnBank_iff, attnUnseen_iff, attnReady_iff,
    or_assoc]

/-- R101: the period timer with `n` ms counted. -/
def periodGrown (n : Nat) (d : Device) : Device :=
  { d with tpm := { d.tpm with period := d.tpm.period.map (· + n) } }

/-- R102, R111: `n` ms of gate-on time as well. -/
def gateGrown (n : Nat) (d : Device) : Device :=
  { periodGrown n d with tpm := { (periodGrown n d).tpm with
    gateOn := d.tpm.gateOn + n, carry := (d.tpm.carry + n) % 1000 } }

section
variable {ms n : Nat} {d : Device}

theorem elapse_of_off (counted : n = countedMs (cfg d) d.tpm ms) (off : d.hpt.effRun = false) :
    elapse ms d = periodGrown n d := by
  subst counted
  exact if_neg (show ¬ d.hpt.effRun = true by simp [off])

theorem elapse_of_on (counted : n = countedMs (cfg d) d.tpm ms) (on : d.hpt.effRun = true) :
    elapse ms d = accrue n (periodGrown n d) := by
  subst counted
  exact if_pos on

theorem accrue_of_none (noneOpen : openLot d = none) : accrue n (periodGrown n d) = gateGrown n d := by
  unfold accrue
  dsimp only
  rw [show openLot (setTpm _ (periodGrown n d)) = none from noneOpen]
  rfl

theorem accrue_of_open {i : Fin 8} {l : Lot} (opened : openLot d = some (i, l)) : accrue n (periodGrown n d) =
    putLot i (some { l with runTime := min 16777215 (l.runTime + (d.tpm.carry + n) / 1000) }) (gateGrown n d) := by
  unfold accrue
  dsimp only
  rw [show openLot (setTpm _ (periodGrown n d)) = some (i, l) from opened]
  exact modifyLot_some _ (show lotAt (gateGrown n d) i = some l from (openLot_some opened).1)

/-- R102: gate-on time never outruns the period timer. -/
theorem elapse_gateOn_le (ms : Nat) (h : d.tpm.gateOn ≤ d.tpm.period.getD 0) :
    (elapse ms d).tpm.gateOn ≤ (elapse ms d).tpm.period.getD 0 := by
  generalize counted : countedMs (cfg d) d.tpm ms = n
  have grown : d.tpm.gateOn + n ≤ (d.tpm.period.map (· + n)).getD 0 := by
    cases period : d.tpm.period with
    | none =>
      rw [period] at h
      rw [countedMs, period] at counted
      subst counted
      exact h
    | some p =>
      rw [period] at h
      exact Nat.add_le_add_right h n
  cases run : d.hpt.effRun with
  | false =>
    rw [elapse_of_off counted.symm run]
    exact (Nat.le_add_right ..).trans grown
  | true =>
    rw [elapse_of_on counted.symm run]
    cases opened : openLot d with
    | none =>
      rw [accrue_of_none opened]
      exact grown
    | some e =>
      obtain ⟨i, l⟩ := e
      rw [accrue_of_open opened]
      exact grown

end

/-- Settles O31: the refresh spelled out, its two levels as conditions, and the milliseconds counted. -/
theorem readyAndRunTime : Obligations.ReadyAndRunTime := by
  refine ⟨fun level s => rfl, fun ms s => ⟨fun alive run => ?_, fun h => ?_⟩, fun s d => ⟨_, rfl, rfl⟩, fun d => ?_,
    attnLevel_iff, fun ms d => ⟨_, _, _, fun period => ?_, fun p period => ?_, rfl, rfl, elapse_of_off rfl,
      fun run noneOpen => ?_, fun i l run opened => ?_, elapse_gateOn_le ms⟩⟩
  · exact congrArg (commit s) (if_pos (by rw [alive, run]; rfl))
  · refine congrArg (commit s) (if_neg ?_)
    rcases h with dead | off
    · simp [dead]
    · simp [off]
  · simp only [feedGate_iff, gateFor_iff]
  · rw [countedMs, period]
    rfl
  · rw [countedMs, period]
    rfl
  · rw [elapse_of_on rfl run, accrue_of_none noneOpen]
    rfl
  · rw [elapse_of_on rfl run, accrue_of_open opened]
    rfl

end Sys2Proof.Machine
end

section
/-! HOLD, LIFT and STATUS heard from a peer, and the operations on the floor-hold table (O33). -/

namespace Sys2Proof.Machine

/-! ## Bulletins heard (R122, R124) -/

/-- R118, R124: the line idle, and the peer heard with its silence timer at 4 status periods. -/
def heardFrom (o : Nat) (d : Device) : Device := { d with fli := { d.fli with
  busy := false, peers := d.fli.peers.setIfInBounds o ⟨.heard, some (4 * ((cfg d).statusPeriod * 1000))⟩ } }

section
variable {c : Instr} {s : State} {o : Nat} {ok : Bool} {act : Device → Device}

theorem exec_of_heard (form : exec c s = commit s (onBulletin o ok act s.dev)) (alive : floorLive s.dev = true)
    (good : ok = true) (peer : o ≠ ownStation s.dev) : exec c s = .next (moved s (settle (act (heardFrom o s.dev)))) := by
  rw [form, onBulletin, if_pos alive, good]
  exact congrArg (commit s) ((if_neg (by decide)).trans (if_neg peer))

end

/-! ## HOLD and LIFT (R173, R175) -/

section
variable {o program tag reason : Nat} {d : Device}

theorem hearHold_of_known {e : FloorHold} (known : floorEntry d o tag = some e) (same : e.program = program) :
    hearHold o program tag reason d = { d with hdu := { d.hdu with table := d.hdu.table.map fun x =>
      if x.origin = o ∧ x.tag = tag then { x with stale := false, reason } else x } } := by
  unfold hearHold
  rw [known]
  exact if_pos same

theorem hearHold_of_other {e : FloorHold} (known : floorEntry d o tag = some e) (other : e.program ≠ program) :
    hearHold o program tag reason d = hearNewHold o program tag reason (removeFloorEntry o tag d) := by
  unfold hearHold
  rw [known]
  exact if_neg other

theorem hearHold_of_new (new : floorEntry d o tag = none) :
    hearHold o program tag reason d = hearNewHold o program tag reason d := by
  unfold hearHold
  rw [new]

theorem hearNewHold_of_room (room : d.hdu.table.length < 8) : hearNewHold o program tag reason d =
    applyFloorHold ⟨program, o, tag, reason, false⟩ { d with hdu := { d.hdu with
      table := d.hdu.table ++ [⟨program, o, tag, reason, false⟩] } } := if_pos room

theorem hearNewHold_of_full (full : 8 ≤ d.hdu.table.length) {v : Device}
    (requested : v = requestRemotes program o tag true d) : hearNewHold o program tag reason d =
      raise .floor .corrected .floorTableFull o { v with rlu := { v.rlu with
        records := v.rlu.records.map (recallUntracked program) } } := by
  unfold hearNewHold
  rw [if_neg (by omega), ← requested]
  rfl

theorem hearLift_of_none (none : floorEntry d o tag = none) : hearLift o tag d = d := by
  rw [hearLift, none]
  rfl

theorem hearLift_of_some {e : FloorHold} (known : floorEntry d o tag = some e) :
    hearLift o tag d = removeFloorEntry o tag d := by
  rw [hearLift, known]
  rfl

end

/-! ## The lots under a floor hold (R169, R173, R174, R177) -/

theorem isRemoteOf_eq (o t : Nat) (u : Bool) (x : HoldEntry) :
    isRemoteOf o t u x = decide (x.key = .remote o t ∧ x.untracked = u) := by
  rw [isRemoteOf, Bool.decide_and]
  rfl

theorem continueIfClear_eq {i : Fin 8} {l : Lot} {d : Device} (hl : lotAt d i = some l) : continueIfClear i d =
    if l.holds = [] ∧ l.overflow = false ∧ l.state = .held then lotContinues i d else d := by
  unfold continueIfClear
  rw [hl, Option.any_some]
  refine if_congr ?_ rfl rfl
  rw [Bool.and_eq_true, beq_iff_eq, Bool.not_eq_true', holdsLot_eq_false_iff]
  tauto

theorem loseRemote_of_none {o t : Nat} {u : Bool} {i : Fin 8} {d : Device} (empty : lotAt d i = none) :
    loseRemote o t u i d = d := by
  unfold loseRemote
  rw [empty]
  rfl

/-- What a lot's loss of its REMOTE entries leaves of it. -/
def withoutRemote (o t : Nat) (u : Bool) (l : Lot) : Lot :=
  { l with holds := l.holds.filter fun x => !decide (x.key = .remote o t ∧ x.untracked = u) }

theorem loseRemote_of_some {o t : Nat} {u : Bool} {i : Fin 8} {l : Lot} {d : Device} (hl : lotAt d i = some l) :
    loseRemote o t u i d = if ∃ x ∈ l.holds, x.key = .remote o t ∧ x.untracked = u then
      (if (withoutRemote o t u l).holds = [] ∧ l.overflow = false ∧ l.state = .held then
        lotContinues i (putLot i (some (withoutRemote o t u l)) d)
      else putLot i (some (withoutRemote o t u l)) d) else d := by
  have others : { l with holds := l.holds.filter fun x => !isRemoteOf o t u x } = withoutRemote o t u l := by
    simp only [isRemoteOf_eq, withoutRemote]
  unfold loseRemote
  rw [hl, Option.any_some, modifyLot_some _ hl, others, continueIfClear_eq (lotAt_putLot_same ..)]
  refine if_congr ?_ rfl rfl
  simp only [List.any_eq_true, isRemoteOf_eq, decide_eq_true_eq]

theorem removeFloorEntry_eq (o t : Nat) (d : Device) : removeFloorEntry o t d = returnRecords o t (loseRemotes o t false
    { d with hdu := { d.hdu with table := d.hdu.table.filter fun e => !decide (e.origin = o ∧ e.tag = t) } }) := by
  have same : (fun e : FloorHold => !(e.origin == o && e.tag == t)) = fun e => !decide (e.origin = o ∧ e.tag = t) := by
    funext e
    rw [Bool.decide_and]
    rfl
  unfold removeFloorEntry
  rw [same]
  rfl

theorem hearHoldList_eq (o : Nat) (holds : List HoldField) (d : Device) : hearHoldList o holds d =
    holds.foldl (fun e h => hearHold o h.program h.tag h.reason e)
      (((d.hdu.table.filter fun e => decide (e.origin = o ∧ ∀ h ∈ holds, h.tag ≠ e.tag)).map (·.tag)).foldl
        (fun e t => removeFloorEntry o t e) d) := by
  have same : (fun e : FloorHold => e.origin == o && !holds.any fun h => h.tag == e.tag) =
      fun e => decide (e.origin = o ∧ ∀ h ∈ holds, h.tag ≠ e.tag) := by
    funext e
    rw [Bool.eq_iff_iff]
    simp
  rw [List.foldl_map, hearHoldList, same]

/-! ## A floor-scope request of a lot (R170) -/

section
variable {i : Fin 8} {l : Lot} {key : Option Nat → HoldKey} {code : Nat} {d : Device}

theorem floorRequest_of_own (hl : lotAt d i = some l) {e : FloorHold}
    (own : ownEntryFor d (currentEntry l).program = some e) :
    floorRequest i key code d = holdRequest i (key (some e.tag)) false d := by
  unfold floorRequest
  rw [hl]
  dsimp only
  rw [own]

theorem floorRequest_of_room (hl : lotAt d i = some l) (none : ownEntryFor d (currentEntry l).program = none)
    (room : d.hdu.table.length < 8) : floorRequest i key code d =
      applyFloorHold ⟨(currentEntry l).program, ownStation d, nextTag d, code, false⟩
        (holdRequest i (key (some (nextTag d))) false (originate (currentEntry l).program code d)) := by
  unfold floorRequest
  rw [hl]
  dsimp only
  rw [none]
  exact if_pos room

theorem floorRequest_of_full (hl : lotAt d i = some l) (none : ownEntryFor d (currentEntry l).program = none)
    (full : 8 ≤ d.hdu.table.length) : floorRequest i key code d =
      raise .floor .corrected .floorTableFull (ownStation d) (holdRequest i (key Option.none) false d) := by
  unfold floorRequest
  rw [hl]
  dsimp only
  rw [none]
  exact if_neg (by omega)

end

/-- Settles O33: HOLD and LIFT by what the table holds, STATUS by its parts, and the table's operations. -/
theorem holdsLiftsAndStatusHeard : Obligations.HoldsLiftsAndStatusHeard := by
  refine ⟨fun o program tag s alive peer p1 p2 t1 t2 => ⟨heardFrom o s.dev, rfl, fun reason r1 r2 => ?_,
      fun none => ?_, fun e known => ?_⟩,
    fun o c s alive peer good => ⟨heardFrom o s.dev, _, rfl, rfl, ?_⟩,
    fun o program tag reason d => ⟨fun e => hearHold_of_known, fun e => hearHold_of_other, hearHold_of_new,
      hearNewHold_of_room, fun full => ⟨_, rfl, hearNewHold_of_full full rfl⟩⟩,
    fun program o t u d => ?_, fun o t u d => ?_, removeFloorEntry_eq,
    fun o holds d => ⟨_, rfl, hearHoldList_eq o holds d⟩,
    fun i l key code d hl => ⟨_, rfl, fun e => floorRequest_of_own hl, fun none room => ⟨_, _, _, rfl, rfl, rfl,
      floorRequest_of_room hl none room⟩, floorRequest_of_full hl⟩⟩
  · have taken : exec (.holdReceived o program tag reason) s = _ := exec_of_heard rfl alive
      (by rw [holdOk, isProgram, inRange_eq_true p1 p2, inRange_eq_true t1 t2, inRange_eq_true r1 r2]; rfl) peer
    rw [taken]
    refine ⟨fun e known same => ?_, fun e known other => ?_, fun new room => ?_, fun new full => ⟨_, rfl, ?_⟩⟩
    · rw [hearHold_of_known (d := heardFrom o s.dev) known same]
    · rw [hearHold_of_other (d := heardFrom o s.dev) known other]
    · rw [hearHold_of_new (d := heardFrom o s.dev) new, hearNewHold_of_room (d := heardFrom o s.dev) room]
    · rw [hearHold_of_new (d := heardFrom o s.dev) new, hearNewHold_of_full (d := heardFrom o s.dev) full rfl]
  · have taken : exec (.liftReceived o program tag 0) s = _ := exec_of_heard rfl alive
      (by rw [liftOk, isProgram, inRange_eq_true p1 p2, inRange_eq_true t1 t2]; rfl) peer
    rw [taken, hearLift_of_none (d := heardFrom o s.dev) none]
  · have taken : exec (.liftReceived o program tag 0) s = _ := exec_of_heard rfl alive
      (by rw [liftOk, isProgram, inRange_eq_true p1 p2, inRange_eq_true t1 t2]; rfl) peer
    rw [taken, hearLift_of_some (d := heardFrom o s.dev) known]
  · have taken : exec (.statusReceived o c) s = _ := exec_of_heard rfl alive good peer
    exact taken
  · refine congrArg (fun f => List.foldl f d slots) (funext fun e => funext fun i => ?_)
    cases lotAt e i with
    | none => rfl
    | some l => exact if_congr (lotCovered_iff l program) rfl rfl
  · refine congrArg (fun f => List.foldl f d slots) (funext fun e => funext fun i => ?_)
    cases hl : lotAt e i with
    | none => exact loseRemote_of_none hl
    | some l => exact loseRemote_of_some hl

end Sys2Proof.Machine
end

section
/-! CLAIM, DOCK, PARK and SEEK heard from a peer, the dock conflict, and what they do to the need (O34). -/

namespace Sys2Proof.Machine

/-! ## The handler table (R136 to R139, R143) -/

theorem parked_filter_eq (d e : Device) (l : List Nat) :
    l.filter (fun h => (entryAt e h).state == .free && (entryAt e h).parkedBy == some (ownStation d)) =
      l.filter fun h => decide ((entryAt e h).state = .free ∧ (entryAt e h).parkedBy = some (ownStation d)) :=
  congrArg (l.filter ·) (funext fun _ => by rw [Bool.decide_and, beq_eq_decide, beq_eq_decide])

theorem entryAt_setEntry_of_ne {h j : Nat} (e : HandlerEntry) (d : Device) (low : 1 ≤ h) (lowJ : 1 ≤ j) (other : j ≠ h) :
    entryAt (setEntry h e d) j = entryAt d j := by
  have apart : h - 1 ≠ j - 1 := by omega
  show (Vector.setIfInBounds _ _ _).toList.getD _ _ = _
  simp [List.getD, entryAt, List.getElem?_set_ne apart]

theorem setEntry_eq (h : Nat) (e : HandlerEntry) (d : Device) : setEntry h e d = { d with asu := { d.asu with
    table := (setEntry h e d).asu.table
    parked := d.asu.parked.filter fun j => decide ((entryAt (setEntry h e d) j).state = .free ∧
      (entryAt (setEntry h e d) j).parkedBy = some (ownStation d)) } } := by
  rw [← parked_filter_eq]
  rfl

theorem entryAt_mapEntries (f : HandlerEntry → HandlerEntry) (keeps : f .reset = .reset) (d : Device) (j : Nat) :
    entryAt (mapEntries f d) j = f (entryAt d j) := by
  show (vmap f d.asu.table).toList.getD _ _ = _
  simp only [entryAt, vmap, Vector.toList, List.getD_eq_getElem?_getD, List.getElem?_map]
  cases d.asu.table.toArray.toList[j - 1]? with
  | none => exact keeps.symm
  | some e => rfl

theorem entryAt_peerUndocks (o : Nat) (d : Device) (j : Nat) : entryAt (peerUndocks o d) j =
    if (entryAt d j).state = .docked ∧ (entryAt d j).station = some o then
      ⟨.unknown, none, (entryAt d j).kit, (entryAt d j).grade, none, none, none⟩ else entryAt d j :=
  entryAt_mapEntries _ rfl d j

theorem peerUndocks_eq (o : Nat) (d : Device) : peerUndocks o d = { d with asu := { d.asu with
    table := (peerUndocks o d).asu.table
    parked := d.asu.parked.filter fun j => decide ((entryAt (peerUndocks o d) j).state = .free ∧
      (entryAt (peerUndocks o d) j).parkedBy = some (ownStation d)) } } := by
  rw [← parked_filter_eq]
  rfl

theorem entryParked_of_other {o k : Nat} {g : Option Grade} {e : HandlerEntry} (other : e.state ≠ .claimed) :
    entryParked o k g e = ⟨.free, none, k, g, none, some o, none⟩ := if_neg other

theorem entryParked_of_claimed {o k : Nat} {g : Option Grade} {e : HandlerEntry} (claimed : e.state = .claimed) :
    entryParked o k g e = { e with parkedBy := some o, kit := k, grade := g } := if_pos claimed

theorem stronger_iff (p s q t : Nat) : stronger p s q t = true ↔ p < q ∨ (p = q ∧ s < t) := by simp [stronger]

section
variable {ms own o p : Nat} {e : HandlerEntry}

theorem entryClaim_of_docked (docked : e.state = .docked) : entryClaim ms own o p e = e := by
  unfold entryClaim
  rw [docked]

theorem entryClaim_of_open (h : e.state = .unknown ∨ e.state = .free) : entryClaim ms own o p e =
    { e with
      state := .claimed, station := some o, strength := some p, timer := if o = own then none else some ms } := by
  unfold entryClaim
  rcases h with h | h
  · rw [h]
  · rw [h]

theorem entryClaim_of_claimed (claimed : e.state = .claimed) : entryClaim ms own o p e =
    if e.station = some o ∨ stronger p o (e.strength.getD 0) (e.station.getD 0) = true then
      { e with station := some o, strength := some p, timer := if o = own then none else some ms }
    else e := by
  unfold entryClaim
  rw [claimed]

theorem entryClaim_of_claimedBy {q c : Nat} (claimed : e.state = .claimed) (station : e.station = some q)
    (strength : e.strength = some c) : entryClaim ms own o p e =
      if o = q ∨ p < c ∨ (p = c ∧ o < q) then
        { e with station := some o, strength := some p, timer := if o = own then none else some ms }
      else e := by
  rw [entryClaim_of_claimed claimed]
  refine if_congr ?_ rfl rfl
  rw [station, strength, Option.some_inj, stronger_iff, eq_comm]
  rfl

end

/-! ## The dock conflict (R140) -/

section
variable {o h k : Nat} {g : Option Grade} {d : Device}

theorem dockedHandler_of_absent (presence : d.hpt.presence = .absent) (handler : d.hpt.handler = some h) :
    dockedHandler d = some h := by
  rw [dockedHandler, if_pos (.inr presence), handler]

theorem dockConflict_of_present (released : Device → Device) (presence : d.hpt.presence = .present) :
    dockConflict h released d = raise .floor .note .dockConflict h d := if_neg (by simp [presence])

theorem dockConflict_of_absent (released : Device → Device) (presence : d.hpt.presence = .absent) :
    dockConflict h released d = raise .floor .note .handlerMoved h (released (undock d)) := if_pos presence

theorem hearDock_of_other (other : dockedHandler d ≠ some h) : hearDock o h k g d =
    needAfterPeerDock h (setEntry h (entryDocked o k g) (peerUndocks o d)) :=
  congrArg (needAfterPeerDock h) (if_neg other)

theorem hearDock_of_docked (docked : dockedHandler d = some h) : hearDock o h k g d =
    needAfterPeerDock h (dockConflict h (setEntry h (entryDocked o k g)) (peerUndocks o d)) :=
  congrArg (needAfterPeerDock h) (if_pos docked)

theorem hearPark_of_other (other : dockedHandler d ≠ some h) : hearPark o h k g d =
    needAfterPark h (setEntry h (entryParked o k g (entryAt d h)) d) :=
  congrArg (needAfterPark h) (if_neg other)

theorem hearPark_of_docked (docked : dockedHandler d = some h) : hearPark o h k g d =
    needAfterPark h (dockConflict h (fun d => setEntry h (entryParked o k g (entryAt d h)) d) d) :=
  congrArg (needAfterPark h) (if_pos docked)

variable {p : HandlerField}

theorem hearParked_of_docked (docked : dockedHandler d = some p.handler) : hearParked o p d =
    dockConflict p.handler (setEntry p.handler (entryFree o p.kit (gradeOfCode p.grade))) d := if_pos docked

section
variable (other : dockedHandler d ≠ some p.handler)
include other

theorem hearParked_of_open (entry : (entryAt d p.handler).state = .unknown ∨ (entryAt d p.handler).state = .free) :
    hearParked o p d = needAfterPark p.handler (setEntry p.handler (entryFree o p.kit (gradeOfCode p.grade)) d) := by
  unfold hearParked
  dsimp only
  rw [if_neg other]
  rcases entry with entry | entry
  · rw [entry]
  · rw [entry]

theorem hearParked_of_dockedEntry (entry : (entryAt d p.handler).state = .docked) : hearParked o p d = d := by
  unfold hearParked
  dsimp only
  rw [if_neg other, entry]

theorem hearParked_of_claimedEntry (entry : (entryAt d p.handler).state = .claimed) : hearParked o p d =
    if wonTarget d p.handler then
      setEntry p.handler (entryParked o p.kit (gradeOfCode p.grade) (entryAt d p.handler)) d else d := by
  unfold hearParked
  dsimp only
  rw [if_neg other, entry]

end

end

theorem wonTarget_iff (d : Device) (h : Nat) :
    wonTarget d h = true ↔ d.asu.need.state = .won ∧ d.asu.need.target = some h := by simp [wonTarget]

theorem undock_asu (d : Device) : (undock d).asu = d.asu := by
  unfold undock
  split <;> rfl

/-! ## The need (R149, R151) -/

theorem isClaim_iff (b : Bulletin) : isClaim b = true ↔ ∃ x k q, b = .claim x k q := by
  cases b <;> simp [isClaim, kindCode]

theorem unmarked_of_isClaim {b : Bulletin} (h : isClaim b = true) : unmarked b = true := by
  obtain ⟨x, k, q, rfl⟩ := (isClaim_iff b).1 h
  rfl

theorem removeClaim_eq (d : Device) : removeClaim d = { d with fli := { d.fli with
    queue := d.fli.queue.filter fun e => !isClaim e.bulletin
    slot := d.fli.slot.map fun sl => if isClaim sl.bulletin then { sl with removal := true } else sl } } := by
  unfold removeClaim
  rw [removeQueued_of_unmarked fun b => unmarked_of_isClaim]

theorem ownClaimed_iff (d : Device) (h : Nat) : ownClaimed d h = true ↔
    (entryAt d h).state = .claimed ∧ (entryAt d h).station = some (ownStation d) := by simp [ownClaimed]

/-- R149: the entry of the lost target is the own station's no more. -/
theorem targetLost_eq (h : Nat) (d : Device) : targetLost h d = toSeeking (removeClaim
    (if (entryAt d h).state = .claimed ∧ (entryAt d h).station = some (ownStation d) then
      setEntry h (if (entryAt d h).parkedBy = none then
          ⟨.unknown, none, (entryAt d h).kit, (entryAt d h).grade, none, none, none⟩
        else { entryAt d h with state := .free, station := none, strength := none, timer := none }) d
      else d)) := by
  rw [targetLost, claimGivenUp, entryUnclaimed_eq]
  exact congrArg (fun d => toSeeking (removeClaim d)) (if_congr (ownClaimed_iff d h) rfl rfl)

section
variable {o h p : Nat} {d : Device}

theorem needAfterClaim_of_other (other : d.asu.need.target ≠ some h ∨
    (d.asu.need.state ≠ .claiming ∧ d.asu.need.state ≠ .won)) : needAfterClaim o h p d = d := by
  unfold needAfterClaim
  dsimp only
  split
  · rename_i target
    obtain ⟨notClaiming, notWon⟩ := other.resolve_left (not_not.2 target)
    cases state : d.asu.need.state with
    | claiming => exact absurd state notClaiming
    | won => exact absurd state notWon
    | idle | seeking | kitChange => rfl
  · rfl

theorem needAfterPeerDock_of_other (other : d.asu.need.target ≠ some h ∨
    (d.asu.need.state ≠ .claiming ∧ d.asu.need.state ≠ .won)) : needAfterPeerDock h d = d := by
  unfold needAfterPeerDock
  split
  · rename_i target
    obtain ⟨notClaiming, notWon⟩ := other.resolve_left (not_not.2 target)
    cases state : d.asu.need.state with
    | claiming => exact absurd state notClaiming
    | won => exact absurd state notWon
    | idle | seeking | kitChange => rfl
  · rfl

theorem needAfterClaim_of_claiming (target : d.asu.need.target = some h) (state : d.asu.need.state = .claiming) :
    needAfterClaim o h p d = if stronger p o (d.asu.need.lastClass.getD 0) (ownStation d) then
      toSeeking (removeClaim d) else if d.asu.need.claimSent then offerClaim h d else d := by
  unfold needAfterClaim
  dsimp only
  rw [if_pos target, state]
  rfl

theorem needAfterClaim_of_won (target : d.asu.need.target = some h) (state : d.asu.need.state = .won) :
    needAfterClaim o h p d = if stronger p o (d.asu.need.lastClass.getD 0) (ownStation d) then
      toSeeking d else offerClaim h d := by
  unfold needAfterClaim
  dsimp only
  rw [if_pos target, state]

theorem needAfterPeerDock_of_claiming (target : d.asu.need.target = some h) (state : d.asu.need.state = .claiming) :
    needAfterPeerDock h d = targetLost h d := by
  unfold needAfterPeerDock
  rw [if_pos target, state]

theorem needAfterPeerDock_of_won (target : d.asu.need.target = some h) (state : d.asu.need.state = .won) :
    needAfterPeerDock h d = toSeeking (raise .floor .note .claimBroken h d) := by
  unfold needAfterPeerDock
  rw [if_pos target, state]

theorem needAfterPark_of_lost (target : d.asu.need.target = some h) (state : d.asu.need.state = .claiming)
    (unfit : (entryAt d h).kit ≠ d.asu.need.kit ∨ (entryAt d h).grade = some .c) :
    needAfterPark h d = targetLost h d := if_pos ⟨state, target, unfit⟩

theorem needAfterPark_of_kept (kept : d.asu.need.target ≠ some h ∨ d.asu.need.state ≠ .claiming ∨
    ((entryAt d h).kit = d.asu.need.kit ∧ (entryAt d h).grade ≠ some .c)) : needAfterPark h d = d := by
  refine if_neg fun ⟨state, target, unfit⟩ => ?_
  rcases kept with other | other | ⟨kit, grade⟩
  · exact other target
  · exact other state
  · exact unfit.elim (· kit) grade

end

/-! ## The bulletins (R137 to R140, R154) -/

theorem handlerFieldOk_of_ranges {h k g : Nat} (low : 1 ≤ h) (high : h ≤ 48) (kit : k ≤ 255) (gLow : 1 ≤ g)
    (gHigh : g ≤ 3) : handlerFieldOk ⟨h, k, g⟩ = true := by
  rw [handlerFieldOk, isHandler, isGrade, inRange_eq_true low high, decide_eq_true kit, inRange_eq_true gLow gHigh]
  rfl

theorem hearSeek_of_idle {k : Nat} {d : Device} (idle : handlerIdle d = true) (same : d.hpt.kit = k) :
    hearSeek k d = parkDocked d := if_pos ⟨idle, same⟩

theorem hearSeek_of_other {k : Nat} {d : Device} (other : handlerIdle d = false ∨ d.hpt.kit ≠ k) : hearSeek k d = d :=
  if_neg fun ⟨idle, same⟩ => other.elim (fun busy => by simp [busy] at idle) (· same)

section
variable {o h k : Nat} {s : State} (alive : floorLive s.dev = true) (peer : o ≠ ownStation s.dev) (low : 1 ≤ h)
  (high : h ≤ 48) (kit : k ≤ 255)

include alive peer

theorem exec_seekReceived {p : Nat} (low : 1 ≤ k) (kit : k ≤ 255) (cls : p ≤ 3) :
    exec (.seekReceived o k p) s = .next (moved s (settle (hearSeek k (heardFrom o s.dev)))) :=
  exec_of_heard rfl alive (by rw [seekOk, inRange_eq_true low kit, decide_eq_true cls]; rfl) peer

include low high kit

theorem exec_claimReceived {p : Nat} (lowKit : 1 ≤ k) (cls : p ≤ 3) :
    exec (.claimReceived o h k p) s = .next (moved s (settle (hearClaim o h p (heardFrom o s.dev)))) :=
  exec_of_heard rfl alive
    (by rw [claimOk, isHandler, inRange_eq_true low high, inRange_eq_true lowKit kit, decide_eq_true cls]; rfl) peer

theorem exec_dockReceived {g : Nat} (gLow : 1 ≤ g) (gHigh : g ≤ 3) : exec (.dockReceived o h k g) s =
    .next (moved s (settle (hearDock o h k (gradeOfCode g) (heardFrom o s.dev)))) :=
  exec_of_heard rfl alive (handlerFieldOk_of_ranges low high kit gLow gHigh) peer

theorem exec_parkReceived {g : Nat} (gLow : 1 ≤ g) (gHigh : g ≤ 3) : exec (.parkReceived o h k g) s =
    .next (moved s (settle (hearPark o h k (gradeOfCode g) (heardFrom o s.dev)))) :=
  exec_of_heard rfl alive (handlerFieldOk_of_ranges low high kit gLow gHigh) peer

end

/-- Settles O34: the bulletins by the own dock record, the entry and the need. -/
theorem assignmentBulletinsHeard : Obligations.AssignmentBulletinsHeard := by
  refine ⟨fun o h k s alive peer low high kit => ⟨heardFrom o s.dev, rfl, fun p lowKit cls => ?_,
      fun g gLow gHigh other => ⟨?_, ?_⟩, fun p lowKit cls => ⟨fun idle same => ?_, fun busy => ?_⟩⟩,
    fun o h k g s alive peer low high kit gLow gHigh handler notTarget => ⟨peerUndocks o (heardFrom o s.dev), rfl,
      fun present => ?_, fun absent => ?_, heardFrom o s.dev, rfl, fun present => ?_, fun absent => ?_⟩,
    fun h e d low high => ⟨entryAt_setEntry e d (by rw [isHandler, inRange_eq_true low high]),
      fun j lowJ other => entryAt_setEntry_of_ne e d low lowJ other, setEntry_eq h e d⟩,
    fun o d => ⟨entryAt_peerUndocks o d, peerUndocks_eq o d⟩,
    fun o k g e => ⟨entryParked_of_other, entryParked_of_claimed⟩,
    fun ms own o p e => ⟨_, rfl, entryClaim_of_docked, entryClaim_of_open, fun q c claimed station strength =>
      ⟨fun stronger => ?_, fun other weaker => ?_⟩⟩,
    fun o h k g d => ⟨_, _, fun e => rfl, fun e => rfl, hearDock_of_other, fun handler present => ⟨?_, ?_⟩,
      fun handler absent => ⟨?_, ?_⟩, fun other => ⟨hearParked_of_open (p := ⟨h, k, g⟩) other,
        hearParked_of_dockedEntry (p := ⟨h, k, g⟩) other,
        fun claimed => ⟨fun won target => ?_, fun notWon => ?_⟩⟩⟩,
    fun o h p d => ⟨_, _, _, rfl, stronger_iff p o _ (ownStation d), rfl, removeClaim_eq d, isClaim_iff, rfl,
      fun other => ⟨needAfterClaim_of_other other, needAfterPeerDock_of_other other⟩,
      fun target claiming => ⟨fun beats => ?_, fun weaker => ?_, ?_, fun unfit => ?_⟩,
      fun target won => ⟨fun beats => ?_, fun weaker => ?_, needAfterPeerDock_of_won target won⟩,
      needAfterPark_of_kept⟩⟩
  · rw [exec_claimReceived alive peer low high kit lowKit cls]
    rfl
  · rw [exec_dockReceived alive peer low high kit gLow gHigh, hearDock_of_other (d := heardFrom o s.dev) other]
    rfl
  · rw [exec_parkReceived alive peer low high kit gLow gHigh, hearPark_of_other (d := heardFrom o s.dev) other]
    rfl
  · rw [exec_seekReceived alive peer lowKit kit cls, hearSeek_of_idle (d := heardFrom o s.dev) idle same]
  · rw [exec_seekReceived alive peer lowKit kit cls, hearSeek_of_other (d := heardFrom o s.dev) busy]
  · rw [exec_dockReceived alive peer low high kit gLow gHigh,
      hearDock_of_docked (d := heardFrom o s.dev) (dockedHandler_of_present present handler),
      dockConflict_of_present (d := peerUndocks o (heardFrom o s.dev)) _ present]
    exact congrArg (fun d => Host.Outcome.next (moved s (settle d))) (needAfterPeerDock_of_other (.inl notTarget))
  · rw [exec_dockReceived alive peer low high kit gLow gHigh,
      hearDock_of_docked (d := heardFrom o s.dev) (dockedHandler_of_absent absent handler),
      dockConflict_of_absent (d := peerUndocks o (heardFrom o s.dev)) _ absent]
    exact congrArg (fun d => Host.Outcome.next (moved s (settle d)))
      (needAfterPeerDock_of_other (.inl (by
        show (undock (peerUndocks o (heardFrom o s.dev))).asu.need.target ≠ some h
        rw [undock_asu]
        exact notTarget)))
  · rw [exec_parkReceived alive peer low high kit gLow gHigh,
      hearPark_of_docked (d := heardFrom o s.dev) (dockedHandler_of_present present handler),
      dockConflict_of_present (d := heardFrom o s.dev) _ present]
    exact congrArg (fun d => Host.Outcome.next (moved s (settle d))) (needAfterPark_of_kept (.inl notTarget))
  · rw [exec_parkReceived alive peer low high kit gLow gHigh,
      hearPark_of_docked (d := heardFrom o s.dev) (dockedHandler_of_absent absent handler),
      dockConflict_of_absent (d := heardFrom o s.dev) _ absent]
    exact congrArg (fun d => Host.Outcome.next (moved s (settle d)))
      (needAfterPark_of_kept (.inl (by
        show (undock (heardFrom o s.dev)).asu.need.target ≠ some h
        rw [undock_asu]
        exact notTarget)))
  · rw [entryClaim_of_claimedBy claimed station strength, if_pos stronger]
  · rw [entryClaim_of_claimedBy claimed station strength, if_neg (by omega)]
  · rw [hearDock_of_docked (dockedHandler_of_present present handler),
      dockConflict_of_present (d := peerUndocks o d) _ present]
  · rw [hearParked_of_docked (dockedHandler_of_present present handler), dockConflict_of_present _ present]
  · rw [hearDock_of_docked (dockedHandler_of_absent absent handler),
      dockConflict_of_absent (d := peerUndocks o d) _ absent]
    rfl
  · rw [hearParked_of_docked (dockedHandler_of_absent absent handler), dockConflict_of_absent _ absent]
    rfl
  · rw [hearParked_of_claimedEntry other claimed, if_pos ((wonTarget_iff d h).2 ⟨won, target⟩),
      entryParked_of_claimed claimed]
  · rw [hearParked_of_claimedEntry other claimed,
      if_neg (by rw [wonTarget_iff]; exact fun ⟨won, target⟩ => notWon.elim (· won) (· target))]
  · rw [needAfterClaim_of_claiming target claiming, if_pos beats]
  · rw [needAfterClaim_of_claiming target claiming, if_neg weaker]
  · rw [needAfterPeerDock_of_claiming target claiming, targetLost_eq]
  · rw [needAfterPark_of_lost target claiming unfit, targetLost_eq]
  · rw [needAfterClaim_of_won target won, if_pos beats]
  · rw [needAfterClaim_of_won target won, if_neg weaker]

end Sys2Proof.Machine
end

section
/-! The floor line's events: frames dropped and duplicates, the start of an attempt, the content of a STATUS (O35). -/

namespace Sys2Proof.Machine

/-! ## Frames (R115, R118, R122, R123) -/

section
variable {c : Instr} {s : State} {o : Nat} {ok : Bool} {act : Device → Device}

theorem exec_floorFrameDropped (alive : floorLive s.dev = true) :
    exec .floorFrameDropped s = .next (moved s (frameDropped (frameEnds s.dev))) := congrArg (commit s) (if_pos alive)

theorem exec_lineBusy (alive : floorLive s.dev = true) :
    exec .lineBusy s = .next (moved s { s.dev with fli := { s.dev.fli with busy := true } }) :=
  congrArg (commit s) (if_pos alive)

theorem exec_duplicateStation (alive : floorLive s.dev = true) :
    exec .duplicateStation s = .next (moved s (settle (duplicateHeard (frameEnds s.dev)))) :=
  congrArg (commit s) (if_pos alive)

theorem exec_of_malformed (form : exec c s = commit s (onBulletin o ok act s.dev)) (alive : floorLive s.dev = true)
    (bad : ok = false) : exec c s = exec .floorFrameDropped s := by
  rw [form, exec_floorFrameDropped alive, onBulletin, if_pos alive, bad]
  rfl

theorem exec_of_ownOrigin (form : exec c s = commit s (onBulletin o ok act s.dev)) (alive : floorLive s.dev = true)
    (good : ok = true) (own : o = ownStation s.dev) : exec c s = exec .duplicateStation s := by
  rw [form, exec_duplicateStation alive, onBulletin, if_pos alive, good]
  exact congrArg (commit s) ((if_neg (by decide)).trans (if_pos own))

end

/-- The seven kinds of bulletin heard from `o`, each with the check of its fields. -/
def heardForms (o a b c : Nat) (f : StatusField) : List (Instr × Bool) :=
  [(.holdReceived o a b c, holdOk ⟨a, b, c⟩), (.liftReceived o a b c, liftOk a b c),
    (.claimReceived o a b c, claimOk a b c), (.dockReceived o a b c, handlerFieldOk ⟨a, b, c⟩),
    (.parkReceived o a b c, handlerFieldOk ⟨a, b, c⟩), (.seekReceived o a b, seekOk a b),
    (.statusReceived o f, statusOk f)]

theorem form_of_mem_heardForms {o a b c : Nat} {f : StatusField} {s : State} {i : Instr} {ok : Bool}
    (mem : (i, ok) ∈ heardForms o a b c f) : ∃ act, exec i s = commit s (onBulletin o ok act s.dev) := by
  simp only [heardForms, List.mem_cons, Prod.mk.injEq, List.not_mem_nil, or_false] at mem
  obtain ⟨rfl, rfl⟩ | ⟨rfl, rfl⟩ | ⟨rfl, rfl⟩ | ⟨rfl, rfl⟩ | ⟨rfl, rfl⟩ | ⟨rfl, rfl⟩ | ⟨rfl, rfl⟩ := mem
  · exact ⟨hearHold o a b c, rfl⟩
  · exact ⟨hearLift o b, rfl⟩
  · exact ⟨hearClaim o a c, rfl⟩
  · exact ⟨hearDock o a b (gradeOfCode c), rfl⟩
  · exact ⟨hearPark o a b (gradeOfCode c), rfl⟩
  · exact ⟨hearSeek a, rfl⟩
  · exact ⟨hearStatus o f, rfl⟩

/-! ## Attempts (R117, R118, log 23) -/

theorem floorLive_iff (d : Device) : floorLive d = true ↔ live d = true ∧ d.fli.line ≠ .off := by
  simp [floorLive]

theorem attemptOpen_iff (d : Device) : attemptOpen d = true ↔
    live d = true ∧ d.fli.line = .active ∧ d.fli.slot = none ∧ d.fli.busy = false := by
  simp only [attemptOpen, Bool.and_eq_true, floorLive_iff, beq_iff_eq, Option.isNone_iff_eq_none, Bool.not_eq_true']
  constructor
  · rintro ⟨⟨⟨⟨alive, -⟩, active⟩, slot⟩, idle⟩
    exact ⟨alive, active, slot, idle⟩
  · rintro ⟨alive, active, slot, idle⟩
    exact ⟨⟨⟨⟨alive, by simp [active]⟩, active⟩, slot⟩, idle⟩

section
variable {s : State}

theorem attemptBegin_of_nil (empty : s.dev.fli.queue = []) : exec .attemptBegin s = .next (moved s s.dev) := by
  show execAttemptBegin s = _
  rw [execAttemptBegin, empty]
  rfl

theorem attemptBegin_of_cons {e : QEntry} {rest : List QEntry} (queue : s.dev.fli.queue = e :: rest) :
    exec .attemptBegin s =
      .next (moved s (if attemptOpen s.dev = true then beginAttempt e rest s.dev else s.dev)) := by
  show execAttemptBegin s = _
  rw [execAttemptBegin, queue]
  rfl

theorem beginAttempt_eq (e : QEntry) (rest : List QEntry) (d : Device) : beginAttempt e rest d =
    { d with fli := { d.fli with
        queue := rest, busy := true
        slot := some ⟨e.bulletin, e.age, if e.bulletin = .status then some (composeStatus d) else none, false⟩ } } := by
  rw [beginAttempt, if_congr (isStatus_iff e.bulletin) rfl rfl]
  rfl

theorem attemptBegin_of_closed (closed : live s.dev = false ∨ s.dev.fli.line ≠ .active ∨ s.dev.fli.slot ≠ none ∨
    s.dev.fli.busy = true ∨ s.dev.fli.queue = []) : exec .attemptBegin s = .next (moved s s.dev) := by
  cases queue : s.dev.fli.queue with
  | nil => exact attemptBegin_of_nil queue
  | cons e rest =>
    rw [attemptBegin_of_cons queue, if_neg]
    rw [attemptOpen_iff]
    rintro ⟨alive, active, slot, idle⟩
    simp [alive, active, slot, idle, queue] at closed

theorem exec_of_noAttempt {c : Instr} {act : TxSlot → Device → Device} (form : exec c s = commit s (onAttempt act s.dev))
    (empty : s.dev.fli.slot = none) : exec c s = .next (moved s s.dev) := by
  rw [form, onAttempt, empty]
  rfl

end

/-! ## The content of a STATUS (R117) -/

section
variable {d : Device} {i : Fin 8} {l : Lot}

theorem cellState_of_staging (staging : stagingLot d = some (i, l)) : cellState d = 2 := by
  rw [cellState, staging]
  rfl

theorem cellState_of_idle (staging : stagingLot d = none) (noneOpen : openLot d = none) : cellState d = 1 := by
  rw [cellState, staging, noneOpen]
  rfl

theorem cellState_of_open (staging : stagingLot d = none) (isOpen : openLot d = some (i, l)) :
    cellState d = if l.state = .held then 4 else 3 := by
  rw [cellState, staging, isOpen]
  rfl

theorem countP_lotList (p : Lot → Bool) (d : Device) :
    ((lotList d).countP fun e => p e.2) = ((List.finRange 8).filter fun i => (lotAt d i).any p).length := by
  rw [lotList, List.countP_filterMap, List.countP_eq_length_filter]
  refine congrArg List.length (List.filter_congr fun i _ => ?_)
  cases lotAt d i with
  | none => rfl
  | some l => rfl

end

theorem insertByTag_eq_orderedInsert (h : HoldField) (l : List HoldField) :
    insertByTag h l = l.orderedInsert (fun x y => x.tag ≤ y.tag) h := by
  induction l with
  | nil => rfl
  | cons x l ih => rw [insertByTag, List.orderedInsert_cons, ih]

theorem foldr_insertByTag (l : List HoldField) :
    l.foldr insertByTag [] = l.insertionSort fun x y => x.tag ≤ y.tag := by
  induction l with
  | nil => rfl
  | cons h l ih => rw [List.foldr_cons, ih, insertByTag_eq_orderedInsert, List.insertionSort_cons]

theorem ownHolds_pairwise (d : Device) : (ownHolds d).Pairwise fun x y => x.tag ≤ y.tag := by
  have : Std.Total fun x y : HoldField => x.tag ≤ y.tag := ⟨fun x y => Nat.le_total ..⟩
  have : IsTrans HoldField fun x y => x.tag ≤ y.tag := ⟨fun _ _ _ => Nat.le_trans⟩
  rw [ownHolds, foldr_insertByTag]
  exact List.pairwise_insertionSort _ _

theorem ownHolds_perm (d : Device) : (ownHolds d).Perm
    ((d.hdu.table.filter fun e => decide (e.origin = ownStation d)).map fun e => ⟨e.program, e.tag, e.reason⟩) := by
  rw [ownHolds, foldr_insertByTag]
  exact List.perm_insertionSort _ _

/-- Settles O35: the events of the line by their checks, and the fields of a STATUS one by one. -/
theorem floorLineEvents : Obligations.FloorLineEvents := by
  refine ⟨fun s alive => ⟨exec_floorFrameDropped alive, exec_lineBusy alive, exec_duplicateStation alive⟩,
    fun s => ⟨fun e rest alive active slot idle queue => ?_, attemptBegin_of_closed, fun empty =>
      ⟨exec_of_noAttempt (act := bulletinSent) rfl empty, exec_of_noAttempt (act := fun _ d => returnSlot d) rfl empty,
        exec_of_noAttempt (act := fun _ d => transmitError d) rfl empty⟩⟩,
    fun o a b c f s alive i ok mem => ?_,
    fun d => ⟨_, rfl, fun ⟨_, _, staging⟩ => cellState_of_staging staging, cellState_of_idle,
      fun _ _ => cellState_of_open, countP_lotList (fun l => l.state = .queued) d, fun empty => ?_, fun h docked => ?_, rfl, ownHolds_pairwise d,
      ownHolds_perm d⟩⟩
  · rw [attemptBegin_of_cons queue, if_pos ((attemptOpen_iff _).2 ⟨alive, active, slot, idle⟩), beginAttempt_eq]
  · obtain ⟨act, form⟩ := form_of_mem_heardForms mem
    exact ⟨exec_of_malformed form alive, exec_of_ownOrigin form alive⟩
  · rw [composeStatus, empty]
    exact ⟨rfl, rfl, rfl⟩
  · rw [composeStatus, docked]
    exact ⟨rfl, rfl, rfl⟩

end Sys2Proof.Machine
end

section
/-! The end of an own attempt, what BARRED discards, and the line timers (O36). -/

namespace Sys2Proof.Machine

/-! ## Reports (R128, R148, R168) -/

theorem filter_bne_eq (t : Nat) (l : List Nat) : l.filter (· != t) = l.filter (· ≠ t) :=
  List.filter_congr fun x _ => by rw [bne, beq_eq_decide, decide_not]

section
variable {d : Device}

theorem clearInPlay_hold (p t r : Nat) : clearInPlay (.hold p t r) d = { d with hdu := { d.hdu with
    holdsInPlay := d.hdu.holdsInPlay.filter (· ≠ t) } } := by
  rw [← filter_bne_eq]
  rfl

theorem clearInPlay_lift (p t : Nat) : clearInPlay (.lift p t) d = { d with hdu := { d.hdu with
    liftsInPlay := d.hdu.liftsInPlay.filter (· ≠ t) } } := by
  rw [← filter_bne_eq]
  rfl

theorem offer_of_closed {b : Bulletin} (closed : d.fli.line = .barred ∨ d.fli.line = .off) :
    offer b d = reportLost b d := by
  rw [offer, if_pos]
  rcases closed with closed | closed
  · rw [closed]
    rfl
  · rw [closed]
    rfl

/-- R128: BARRED discards the queue as it discards an offer. -/
theorem foldl_reportLost_of_barred (q : List QEntry) : ∀ {d : Device}, d.fli.line = .barred →
    q.foldl (fun d e => reportLost e.bulletin d) d = q.foldl (fun d e => offer e.bulletin d) d := by
  induction q with
  | nil => exact fun _ => rfl
  | cons e q ih =>
    intro d barred
    rw [List.foldl_cons, List.foldl_cons, offer_of_closed (.inl barred), ih (by rw [reportLost_fli, barred])]

theorem enterBarred_of_other (other : d.fli.line ≠ .barred) : enterBarred d =
    d.fli.queue.foldl (fun e x => offer x.bulletin e) { d with
      fli := { d.fli with line := .barred, quietTimer := none, statusTimer := none, queue := [] } } :=
  (if_neg other).trans (foldl_reportLost_of_barred _ rfl)

/-! ## The slot (R121) -/

theorem supersedes_iff (q r : Bulletin) : supersedes q r = true ↔
    (r = .status ∧ q = .status) ∨
    (∃ k p k' p', r = .seek k p ∧ q = .seek k' p') ∨
    (∃ h k p h' k' p', r = .claim h k p ∧ q = .claim h' k' p') ∨
    (∃ p t x p', r = .hold p t x ∧ q = .lift p' t) ∨
    (∃ h k g k' g', (r = .dock h k g ∨ r = .park h k g) ∧ (q = .dock h k' g' ∨ q = .park h k' g')) := by
  cases r with
  | status => cases q <;> simp [supersedes, dockParkHandler]
  | seek k p => cases q <;> simp [supersedes, dockParkHandler]
  | claim h k p => cases q <;> simp [supersedes, dockParkHandler]
  | hold p t x => cases q <;> simp [supersedes, dockParkHandler]
  | lift p t => cases q <;> simp [supersedes, dockParkHandler]
  | dock h k g => cases q <;> simp [supersedes, dockParkHandler, eq_comm (a := h)]
  | park h k g => cases q <;> simp [supersedes, dockParkHandler, eq_comm (a := h)]

section
variable {sl : TxSlot} (slot : d.fli.slot = some sl)
include slot

theorem returnSlot_of_gone (gone : sl.removal = true ∨ ∃ e ∈ d.fli.queue, supersedes e.bulletin sl.bulletin = true) :
    returnSlot d = clearInPlay sl.bulletin { d with fli := { d.fli with slot := none } } := by
  rw [returnSlot, slot]
  exact if_pos (by simpa using gone)

variable (kept : sl.removal = false) (notSuperseded : ¬ ∃ e ∈ d.fli.queue, supersedes e.bulletin sl.bulletin = true)
include kept notSuperseded

theorem returnSlot_of_kept : returnSlot d =
    if d.fli.line = .barred then reportLost sl.bulletin { d with fli := { d.fli with slot := none } }
    else { d with fli := { d.fli with slot := none, queue := insertEntry ⟨sl.bulletin, sl.age⟩ d.fli.queue } } := by
  rw [returnSlot, slot]
  exact if_neg (by simpa [kept] using notSuperseded)

end

end

/-! ## The end of an attempt (R119, R120, R126, R127) -/

section
variable {c : Instr} {s : State} {sl : TxSlot} {act : TxSlot → Device → Device}

theorem exec_of_attempt (form : exec c s = commit s (onAttempt act s.dev)) (alive : floorLive s.dev = true)
    (slot : s.dev.fli.slot = some sl) : exec c s = .next (moved s (settle (act sl s.dev))) := by
  rw [form, onAttempt, slot]
  exact congrArg (commit s) (if_pos alive)

end

theorem quietCheck_of_low {d : Device} (low : d.fli.score < 64 ∨ d.fli.line ≠ .active) : quietCheck d = d :=
  if_neg fun ⟨high, active⟩ => low.elim (fun low => by omega) (· active)

theorem quietCheck_of_high {d : Device} (high : 64 ≤ d.fli.score) (active : d.fli.line = .active) : quietCheck d =
    setFli (fun f => { f with line := .quiet, quietTimer := some 10000 })
      (raise .floor .note .lineQuiet (ownStation d) d) := if_pos ⟨high, active⟩

theorem ownStation_returnSlot (d : Device) : ownStation (returnSlot d) = ownStation d :=
  (keeps_returnSlot (P := True) d).weak.ctp.station

/-! ## SENT of the own CLAIM (R148) -/

/-- R139, R148: the own CLAIM of class `p` does not take the entry. -/
def claimBeaten (own p : Nat) (e : HandlerEntry) : Bool :=
  e.state == .docked ||
    (e.state == .claimed && e.station != some own && !stronger p own (e.strength.getD 0) (e.station.getD 0))

theorem claimBeaten_iff (own p : Nat) (e : HandlerEntry) : claimBeaten own p e = true ↔ e.state = .docked ∨
    (e.state = .claimed ∧ e.station ≠ some own ∧
      ¬ (p < e.strength.getD 0 ∨ (p = e.strength.getD 0 ∧ own < e.station.getD 0))) := by
  rw [← stronger_iff]
  simp [claimBeaten, and_assoc]

theorem entryClaim_own (own p : Nat) (e : HandlerEntry) : entryClaim 0 own own p e =
    if claimBeaten own p e then e
    else { e with state := .claimed, station := some own, strength := some p, timer := none } := by
  cases state : e.state with
  | unknown =>
    rw [entryClaim_of_open (.inl state), if_pos rfl, if_neg (by simp [claimBeaten, state])]
  | free =>
    rw [entryClaim_of_open (.inr state), if_pos rfl, if_neg (by simp [claimBeaten, state])]
  | docked => rw [entryClaim_of_docked state, if_pos (by simp [claimBeaten, state])]
  | claimed =>
    rw [entryClaim_of_claimed state, if_pos rfl]
    split
    · rename_i takes
      rw [if_neg (by rw [claimBeaten_iff, ← stronger_iff]; rintro (h | ⟨-, notOwn, weaker⟩)
                     · simp [state] at h
                     · exact takes.elim notOwn weaker)]
      rw [← state]
    · rename_i beaten
      rw [if_pos ((claimBeaten_iff ..).2 (.inr ⟨state, by rw [← stronger_iff]; exact not_or.1 beaten⟩))]

section
variable {h p : Nat} {d : Device}

theorem claimSent_of_other (other : d.asu.need.target ≠ some h ∨
    (d.asu.need.state ≠ .claiming ∧ d.asu.need.state ≠ .won)) : claimSent h p d = d :=
  if_neg fun ⟨target, state⟩ => other.elim (· target) fun ⟨notClaiming, notWon⟩ => state.elim notClaiming notWon

theorem claimSent_of_target (target : d.asu.need.target = some h)
    (state : d.asu.need.state = .claiming ∨ d.asu.need.state = .won) : claimSent h p d =
      if d.asu.need.state = .claiming ∧ d.asu.need.claimSent = false then
        setNeed { d.asu.need with claimSent := true, windowTimer := some (cfg d).claimWindow }
          (setEntry h (entryClaim 0 (ownStation d) (ownStation d) p (entryAt d h)) d)
      else setEntry h (entryClaim 0 (ownStation d) (ownStation d) p (entryAt d h)) d := if_pos ⟨target, state⟩

end

/-! ## The line timers (R116, R127, R132) -/

section
variable {s : State} (alive : live s.dev = true)
include alive

theorem exec_statusPeriod {n : Nat} (runs : s.dev.fli.statusTimer = some n) :
    exec .statusPeriodTimerExpiry s = .next (moved s (settle (statusPeriod s.dev))) :=
  exec_of_timer rfl alive (by rw [runs]; rfl)

theorem exec_quietTimer {n : Nat} (runs : s.dev.fli.quietTimer = some n) :
    exec .quietTimerExpiry s = .next (moved s (settle { s.dev with
      fli := { s.dev.fli with quietTimer := none, score := 32, line := .active } })) := by
  have taken : exec .quietTimerExpiry s = _ := exec_of_timer rfl alive (by rw [runs]; rfl)
  exact taken

theorem exec_peerSilenceTimer {o : Fin 32} {n : Nat} (runs : s.dev.fli.peers[o].timer = some n) :
    exec (.peerSilenceTimerExpiry o.val) s = .next (moved s (settle (peerSilent o.val s.dev))) :=
  exec_of_timer rfl alive (by rw [peerAt_fin, runs]; rfl)

end

theorem statusPeriod_of_listen {d u : Device} (restarted : u = { d with fli := { d.fli with
      statusTimer := some ((cfg d).statusPeriod * 1000) } }) (listen : d.fli.line = .listen) :
    statusPeriod d = { offer .status u with fli := { (offer .status u).fli with line := .active } } := by
  subst restarted
  unfold statusPeriod
  dsimp only [setFli]
  rw [listen]
  rfl

theorem statusPeriod_of_active {d u : Device} (restarted : u = { d with fli := { d.fli with
      statusTimer := some ((cfg d).statusPeriod * 1000) } }) (sends : d.fli.line = .active ∨ d.fli.line = .quiet) :
    statusPeriod d = offer .status u := by
  subst restarted
  unfold statusPeriod
  dsimp only [setFli]
  rcases sends with line | line
  · rw [line]
    rfl
  · rw [line]
    rfl

theorem setPeer_fin (o : Fin 32) (p : Peer) (d : Device) :
    setPeer o.val p d = { d with fli := { d.fli with peers := d.fli.peers.set o p } } := by
  have inBounds : d.fli.peers.setIfInBounds o.val p = d.fli.peers.set o p :=
    Vector.toArray_inj.1 (dif_pos (by simp))
  rw [setPeer, setFli, inBounds]

/-- Settles O36: the ends of an attempt, the timers, what BARRED discards, and the reports, each by its cases. -/
theorem attemptEndsAndLineTimers : Obligations.AttemptEndsAndLineTimers := by
  refine ⟨fun sl s alive slot => ⟨exec_of_attempt (act := bulletinSent) rfl alive slot,
      exec_of_attempt (act := fun _ d => returnSlot d) rfl alive slot, _, rfl, fun low => ?_,
      fun high active => ⟨_, rfl, ?_⟩⟩,
    fun s alive => ⟨fun n runs => ⟨_, rfl, fun listen => ?_, fun sends => ?_⟩, fun n => exec_quietTimer alive,
      fun o n runs => ⟨_, rfl, ?_⟩⟩,
    fun b d closed => ⟨?_, ?_, ?_, ?_, ?_, ?_⟩,
    fun d => ⟨fun barred => if_pos barred, enterBarred_of_other⟩,
    fun sl d slot => ⟨_, ∃ e ∈ d.fli.queue, supersedes e.bulletin sl.bulletin = true, rfl, ?_,
      returnSlot_of_gone slot, fun kept notSuperseded barred => ?_, fun kept notSuperseded other => ?_⟩,
    fun b d => ⟨?_, ?_, ?_, ?_, ?_, ?_⟩,
    fun h p d => ⟨_, _, _, rfl, claimBeaten_iff (ownStation d) p (entryAt d h), rfl, fun target claiming notSent => ?_,
      fun target state => ?_, claimSent_of_other⟩⟩
  · have ended : exec .transmitError s = _ := exec_of_attempt (act := fun _ d => transmitError d) rfl alive slot
    rw [ended, transmitError, quietCheck_of_low (by rw [returnSlot_score, returnSlot_line]; exact low)]
    rfl
  · have ended : exec .transmitError s = _ := exec_of_attempt (act := fun _ d => transmitError d) rfl alive slot
    rw [ended, transmitError, quietCheck_of_high (by rw [returnSlot_score]; exact high)
      (by rw [returnSlot_line]; exact active), ownStation_returnSlot]
    rfl
  · rw [exec_statusPeriod alive runs, statusPeriod_of_listen rfl listen]
  · rw [exec_statusPeriod alive runs, statusPeriod_of_active rfl sends]
  · rw [exec_peerSilenceTimer alive runs, peerSilent, setPeer_fin]
    rfl
  · rintro p t r rfl
    exact (offer_of_closed closed).trans (clearInPlay_hold p t r)
  · rintro p t rfl
    exact (offer_of_closed closed).trans (clearInPlay_lift p t)
  · rintro h k p rfl
    exact offer_of_closed closed
  · rintro h k g (rfl | rfl)
    · exact offer_of_closed closed
    · exact offer_of_closed closed
  · rintro k p rfl
    exact offer_of_closed closed
  · rintro rfl
    exact offer_of_closed closed
  · exact exists_congr fun e => and_congr_right fun _ => supersedes_iff e.bulletin sl.bulletin
  · rw [returnSlot_of_kept slot kept notSuperseded, if_pos barred]
    exact (offer_of_closed (d := { d with fli := { d.fli with slot := none } }) (.inl barred)).symm
  · rw [returnSlot_of_kept slot kept notSuperseded, if_neg other]
  · rintro p t r rfl
    exact ⟨rfl, clearInPlay_hold p t r⟩
  · rintro p t rfl
    exact ⟨rfl, clearInPlay_lift p t⟩
  · rintro h k p rfl
    exact ⟨rfl, rfl⟩
  · rintro h k g (rfl | rfl)
    · exact ⟨rfl, rfl⟩
    · exact ⟨rfl, rfl⟩
  · rintro k p rfl
    exact ⟨rfl, rfl⟩
  · rintro rfl
    exact ⟨rfl, rfl⟩
  · rw [claimSent_of_target target (.inl claiming), if_pos ⟨claiming, notSent⟩, entryClaim_own]
  · rw [claimSent_of_target target (state.imp And.left id), entryClaim_own]
    refine if_neg fun ⟨claiming, notSent⟩ => ?_
    rcases state with ⟨-, sent⟩ | won
    · simp [sent] at notSent
    · simp [won] at claiming

end Sys2Proof.Machine
end

section
/-! The timers of the assignment unit, the undock order, and parking the docked handler (O37). -/

namespace Sys2Proof.Machine

/-! ## The undock order (R44) -/

section
variable {d : Device}

theorem undock_of_present (presence : d.hpt.presence = .present) : undock d = { d with
    hpt := { d.hpt with
      presence := .leaving, leaving := some 3000, absence := none, soaked := none, soak := none
      kitChange := none, capAcc := 0, capFirst := false, capSpoiled := true }
    tpm := { d.tpm with sampled := none, period := none, results := 0, gateOn := 0, jams := 0 }
    lines := { d.lines with handlerOut := d.lines.handlerOut ++ [.undock] } } := by
  unfold undock
  rw [presence]
  rfl

theorem undock_of_absent (presence : d.hpt.presence = .absent) : undock d = { d with
    hpt := { d.hpt with
      presence := .empty, handler := none, kit := 0, soaked := none, soak := none
      kitChange := none, capAcc := 0, capFirst := false, capSpoiled := true }
    tpm := { d.tpm with
      sampled := none, period := none, results := 0, gateOn := 0, jams := 0
      grade := none, degrade := 0, recover := 0 }
    lines := { d.lines with handlerOut := d.lines.handlerOut ++ [.undock] } } := by
  unfold undock
  rw [presence]
  rfl

theorem undock_of_gone (presence : d.hpt.presence = .empty ∨ d.hpt.presence = .leaving) : undock d = d := by
  unfold undock
  rcases presence with presence | presence
  · rw [presence]
  · rw [presence]

theorem ownStation_undock (d : Device) : ownStation (undock d) = ownStation d := by
  unfold undock
  split <;> rfl

theorem dockedHandler_of_gone (presence : d.hpt.presence = .empty ∨ d.hpt.presence = .leaving) :
    dockedHandler d = none := if_neg (by rcases presence with presence | presence <;> simp [presence])

theorem dockedHandler_of_noHandler (noHandler : d.hpt.handler = none) : dockedHandler d = none := by
  rw [dockedHandler, noHandler, ite_self]

/-! ## Parking the docked handler (R143) -/

theorem parkDocked_of_none (undocked : dockedHandler d = none) : parkDocked d = d := by
  rw [parkDocked, undocked]

theorem parkDocked_of_docked {h : Nat} (docked : dockedHandler d = some h) :
    parkDocked d = parkEntry h d.hpt.kit d.tpm.grade (undock d) := by
  rw [parkDocked, docked]

end

/-- The parts of the state that an offer does not touch and the undock order does. -/
def dockParts (d : Device) : Hpt × Tpm × Lines := (d.hpt, d.tpm, d.lines)

theorem dockParts_clearInPlay (b : Bulletin) (d : Device) : dockParts (clearInPlay b d) = dockParts d := by
  cases b <;> rfl

theorem dockParts_claimLost (d : Device) : dockParts (claimLost d) = dockParts d := by
  rw [claimLost]
  split <;> rfl

theorem dockParts_reportLost (b : Bulletin) (d : Device) : dockParts (reportLost b d) = dockParts d := by
  rw [reportLost]
  split
  · exact dockParts_claimLost d
  · exact dockParts_clearInPlay b d

theorem dockParts_foldl_reportGone (q : List QEntry) : ∀ d : Device,
    dockParts (q.foldl (fun d e => reportGone e.bulletin d) d) = dockParts d := by
  induction q with
  | nil => exact fun _ => rfl
  | cons e q ih => exact fun d => (ih _).trans (dockParts_clearInPlay e.bulletin d)

theorem dockParts_removeQueued (p : Bulletin → Bool) (d : Device) : dockParts (removeQueued p d) = dockParts d :=
  dockParts_foldl_reportGone _ _

theorem dockParts_refuseOffer (b : Bulletin) (d : Device) : dockParts (refuseOffer b d) = dockParts d := by
  cases b with
  | hold p t r => exact dockParts_clearInPlay ..
  | lift p t => exact dockParts_clearInPlay ..
  | claim h k p => exact dockParts_claimLost _
  | dock h k g | park h k g | seek k p | status => rfl

theorem dockParts_offer (b : Bulletin) (d : Device) : dockParts (offer b d) = dockParts d := by
  unfold offer
  split
  · exact dockParts_reportLost b d
  split
  · exact dockParts_removeQueued (replaces b) d
  split
  · rfl
  split
  · exact dockParts_removeQueued isStatus d
  split
  · exact dockParts_removeQueued isSeek d
  · exact dockParts_refuseOffer b d

theorem dockParts_parkEntry (h k : Nat) (g : Option Grade) (d : Device) :
    dockParts (parkEntry h k g d) = dockParts d := dockParts_offer (.park h k g) d

/-- R143: the handler parked last is the last on the own parked list. -/
theorem getLast?_joinParked (h : Nat) (d : Device) : (joinParked h d).asu.parked.getLast? = some h := by
  rw [joinParked_eq h d rfl]
  show (List.drop _ _).getLast? = _
  rw [List.getLast?_drop, if_neg (by simp), List.getLast?_concat]

/-! ## The timers (R139, R147 to R151, R153) -/

section
variable {s : State} {n h : Nat} (alive : live s.dev = true)
include alive

theorem exec_claimTimer (runs : (entryAt s.dev h).timer = some n) : exec (.claimTimerExpiry h) s =
    .next (moved s (settle (setEntry h (entryUnclaimed (entryAt s.dev h)) s.dev))) := by
  have taken : exec (.claimTimerExpiry h) s = _ := exec_of_timer rfl alive (by rw [runs]; rfl)
  exact taken

theorem exec_seekRepeat (runs : s.dev.asu.need.seekTimer = some n) :
    exec .seekRepeatTimerExpiry s = .next (moved s (settle (seekRepeat s.dev))) :=
  exec_of_timer rfl alive (by rw [runs]; rfl)

theorem exec_claimWindow (runs : s.dev.asu.need.windowTimer = some n) (claiming : s.dev.asu.need.state = .claiming) :
    exec .claimWindowExpiry s = .next (moved s (settle (claimWon s.dev))) :=
  exec_of_timer rfl alive (by rw [runs, claiming]; rfl)

theorem exec_dockWait (runs : s.dev.asu.need.dockWaitTimer = some n) (won : s.dev.asu.need.state = .won)
    (target : s.dev.asu.need.target = some h) :
    exec .dockWaitExpiry s = .next (moved s (settle (dockWaitOver h s.dev))) := by
  have taken : exec .dockWaitExpiry s = _ := exec_of_timer rfl alive (by rw [runs, won]; rfl)
  rw [taken, target]

theorem exec_idleTimer (runs : s.dev.asu.idleTimer = some n) :
    exec .idleTimerExpiry s = .next (moved s (settle (parkDocked (stopIdle s.dev)))) := by
  have taken : exec .idleTimerExpiry s = _ := exec_of_timer rfl alive (by rw [runs]; rfl)
  exact taken

end

theorem seekRepeat_of_seeking {d : Device} (seeking : d.asu.need.state = .seeking) :
    seekRepeat d = offerSeek (setNeed { d.asu.need with seekTimer := none } d) := by
  unfold seekRepeat
  dsimp only [setNeed]
  rw [seeking]

theorem seekRepeat_of_unsent {d : Device} {h : Nat} (claiming : d.asu.need.state = .claiming)
    (target : d.asu.need.target = some h) (unsent : d.asu.need.claimSent = false) :
    seekRepeat d = offerClaim h (setNeed { d.asu.need with seekTimer := none } d) := by
  unfold seekRepeat
  dsimp only [setNeed]
  rw [claiming, target, unsent]
  rfl

/-- Settles O37: each timer by the need's state, the undock order by the presence, and the parking by its parts. -/
theorem assignmentTimersAndParking : Obligations.AssignmentTimersAndParking := by
  refine ⟨fun s alive => ⟨fun h n runs => ?_, fun n runs seeking => ?_, fun n h runs claiming target unsent => ?_,
      fun n => exec_claimWindow alive, fun n h runs won target => ⟨_, rfl, exec_dockWait alive runs won target⟩,
      fun n => exec_idleTimer alive⟩,
    fun d => ⟨undock_of_present, undock_of_absent, fun gone => ⟨undock_of_gone gone,
      parkDocked_of_none (dockedHandler_of_gone gone)⟩,
      fun noHandler => parkDocked_of_none (dockedHandler_of_noHandler noHandler), rfl⟩,
    fun h d low high presence handler => ⟨_, rfl, ?_⟩⟩
  · rw [exec_claimTimer alive runs, entryUnclaimed_eq]
  · rw [exec_seekRepeat alive runs, seekRepeat_of_seeking seeking]
  · rw [exec_seekRepeat alive runs, seekRepeat_of_unsent claiming target unsent]
  · have docked : dockedHandler d = some h :=
      presence.elim (dockedHandler_of_present · handler) (dockedHandler_of_absent · handler)
    have parts : dockParts (parkDocked d) = dockParts (undock d) := by
      rw [parkDocked_of_docked docked, dockParts_parkEntry]
    obtain ⟨hpt, rest⟩ := Prod.mk.inj parts
    obtain ⟨tpm, lines⟩ := Prod.mk.inj rest
    refine ⟨?_, hpt, tpm, lines, ?_⟩
    · rw [parkDocked_of_docked docked, parkEntry, ownStation_undock]
      rfl
    · rw [parkDocked_of_docked docked]
      exact getLast?_joinParked h _

end Sys2Proof.Machine
end

section
/-! A counted result at RAU and TPM (O39), and at STU with its site runs, windows and site disable (O40). -/

namespace Sys2Proof.Machine

/-! ## Counting (R63, R65, R66, R103) -/

section
variable {i k : Fin 8} {b : Fin 16} {l : Lot} {d : Device}

theorem goesToRetest_iff (c : ConfigBlock) (l : Lot) (k : Nat) (b : Fin 16) : goesToRetest c l k b = true ↔
    binClass c b = some .retest ∧ k < (currentEntry l).retests := by simp [goesToRetest]

theorem placeUnit_eq (c : ConfigBlock) (l : Lot) (k : Nat) (b : Fin 16) (a : Accum) : placeUnit c l k b a =
    if binClass c b = some .retest ∧ k < (currentEntry l).retests then
      { a with pendingNext := a.pendingNext + 1 }
    else { a with final := a.final.set b (a.final[b] + 1) } :=
  if_congr (goesToRetest_iff c l k b) rfl rfl

theorem firstPassAcc_of_first (c : ConfigBlock) (first : l.acc.countingPass = 0) : firstPassAcc c l b l.acc =
    placeUnit c l l.acc.countingPass b { l.acc with
      first := l.acc.first.set b (l.acc.first[b] + 1), t1 := l.acc.t1 + 1 } :=
  congrArg (fun k => placeUnit c l k b _) first.symm

theorem rauResult_of_first (here : lotAt d i = some l) (first : l.acc.countingPass = 0) (room : l.acc.t1 < 1048575) :
    rauResult i k b d = tpmCount (stuResult i k b (overcountCheck i
      (putLot i (some { l with acc := firstPassAcc (cfg d) l b l.acc }) d))) := by
  have notFull : ¬ Config.countTop ≤ l.acc.t1 := Nat.not_le.2 room
  simp only [rauResult, here, first, notFull, if_true, if_false, modifyLot_some _ here]

theorem overcountCheck_of_within (here : lotAt d i = some l) (within : l.acc.t1 ≤ l.qIn ∨ l.acc.overcountMark = true) :
    overcountCheck i d = d := by
  rw [overcountCheck, here]
  refine if_neg fun ⟨above, unmarked⟩ => ?_
  rcases within with low | marked
  · omega
  · simp [marked] at unmarked

theorem overcountCheck_of_above (here : lotAt d i = some l) (above : l.qIn < l.acc.t1)
    (unmarked : l.acc.overcountMark = false) : overcountCheck i d =
      holdRequest i .count false (raise .accounting .corrected .overcount i.val (putLot i (some (setOvercount l)) d)) := by
  rw [overcountCheck, here, ← modifyLot_some setOvercount here]
  exact if_pos ⟨above, unmarked⟩

theorem tpmCount_eq (d : Device) : tpmCount d = if d.tpm.period = none then d
    else { d with tpm := { d.tpm with results := min 1048575 (d.tpm.results + 1) } } := by
  unfold tpmCount
  cases d.tpm.period with
  | none => rfl
  | some n => rfl

end

/-- Settles O39: the unit's place by its bin's class and the pass, then the checks of the pass it is counted in. -/
theorem countedResults : Obligations.CountedResults := by
  refine ⟨fun i k b l d here => ⟨placeUnit (cfg d) l l.acc.countingPass b, placeUnit_eq _ l _ b, fun first room => ?_,
      rauResult_of_owed here⟩,
    fun i l d here => ⟨overcountCheck_of_within here, overcountCheck_of_above here⟩, tpmCount_eq⟩
  rw [rauResult_of_first here first room, firstPassAcc_of_first _ first]

/-! ## Site disable (R32) -/

theorem uncoveredSites_iff (d : Device) (j : Fin 8) : (uncoveredSites d).getLsbD j.val = true ↔
    d.tpt.mask[j] = .disabling ∧ d.tpt.arm.mask.getLsbD j.val = true ∧
      ∀ e ∈ d.tpt.outstanding, e.getLsbD j.val = false := by
  rw [uncoveredSites, getLsbD_siteBits]
  simp only [Bool.and_eq_true, beq_iff_eq, Bool.not_eq_true', List.any_eq_false, Bool.not_eq_true, and_assoc]
  exact and_congr_right fun _ => and_comm

theorem disableSite_of_armed {k : Fin 8} {d : Device} (armed : d.tpt.arm.state = .armed) (up : d.tpt.link = .up) :
    disableSite k d = sendMask (setSite k .disabling d) := if_pos ⟨armed, up⟩

theorem disableSite_of_unarmed {k : Fin 8} {d : Device} (unarmed : d.tpt.arm.state ≠ .armed ∨ d.tpt.link ≠ .up) :
    disableSite k d = setSite k .disabling d := if_neg fun ⟨armed, up⟩ => unarmed.elim (· armed) (· up)

/-! ## Site runs and windows (R84 to R87) -/

section
variable {i k : Fin 8} {pass : Bool} {l : Lot} {d : Device}

theorem modifyStats_some (here : lotAt d i = some l) (f : Stats → Stats) :
    modifyStats i f d = putLot i (some { l with stats := f l.stats }) d := modifyLot_some _ here

theorem countSite_eq (k : Fin 8) (pass : Bool) (t : Stats) : countSite k pass t = { t with
    siteTested := t.siteTested.set k (t.siteTested[k] + 1)
    sitePass := if pass then t.sitePass.set k (t.sitePass[k] + 1) else t.sitePass
    run := t.run.set k (if pass then 0 else t.run[k] + 1) } := by
  cases pass <;> rfl

theorem run_countSite (k : Fin 8) (t : Stats) : (countSite k false t).run[k] = t.run[k] + 1 :=
  Vector.getElem_set_self ..

theorem enabledCount_eq (d : Device) :
    enabledCount d = (siteList.filter fun j => decide (d.tpt.mask[j] = .enabled)).length := by
  rw [enabledCount, List.countP_eq_length_filter]
  rfl

/-- R85: a site disable leaves enough sites ENABLED. -/
def mayDisable (d : Device) : Prop := (cfg d).siteDisable = true ∧
  (cfg d).minSites ≤ (siteList.filter fun j => decide (d.tpt.mask[j] = .enabled)).length - 1

section
variable (here : lotAt d i = some l)
include here

theorem siteRunCheck_of_under (under : l.stats.run[k] < (cfg d).siteRunLimit) : siteRunCheck i k d = d := by
  rw [siteRunCheck, here]
  exact if_pos under

variable (reached : (cfg d).siteRunLimit ≤ l.stats.run[k])
include reached

theorem siteRunCheck_of_disable (enabled : d.tpt.mask[k] = .enabled) (may : mayDisable d) :
    siteRunCheck i k d = clearRun i k (raise .tester .note .siteDisabled i.val (disableSite k d)) := by
  rw [mayDisable, ← enabledCount_eq] at may
  simp only [siteRunCheck, here, if_neg (Nat.not_lt.2 reached), enabled, if_pos may]

theorem siteRunCheck_of_hold (enabled : d.tpt.mask[k] = .enabled) (mayNot : ¬ mayDisable d) :
    siteRunCheck i k d = clearRun i k (holdRequest i (.siteRun k.val) false d) := by
  rw [mayDisable, ← enabledCount_eq] at mayNot
  simp only [siteRunCheck, here, if_neg (Nat.not_lt.2 reached), enabled, if_neg mayNot]

theorem siteRunCheck_of_disabling (disabling : d.tpt.mask[k] = .disabling) :
    siteRunCheck i k d = clearRun i k d := by
  simp only [siteRunCheck, here, if_neg (Nat.not_lt.2 reached), disabling]

end

variable (here : lotAt d i = some l)
include here

theorem countWindow_eq : countWindow i pass d =
    (fun u => if (cfg d).windowSize ≤ l.stats.winResults + 1 then windowClose i u else u)
      (putLot i (some { l with stats := { l.stats with
        winResults := l.stats.winResults + 1, winPass := l.stats.winPass + (if pass then 1 else 0) } }) d) := by
  rw [countWindow, modifyStats_some here]
  simp only [lotAt_putLot_same]
  rfl

theorem stuResult_of_uncounted {b : Fin 16} (uncounted : l.acc.countingPass ≠ 0 ∨ b = 0) : stuResult i k b d = d := by
  rw [stuResult, here]
  exact if_pos uncounted

theorem stuResult_of_counted {b : Fin 16} (first : l.acc.countingPass = 0) (counted : b ≠ 0)
    (cls : pass = decide (binClass (cfg d) b = some .pass)) : stuResult i k b d =
      countWindow i pass (if pass then putLot i (some { l with stats := countSite k pass l.stats }) d
        else siteRunCheck i k (putLot i (some { l with stats := countSite k pass l.stats }) d)) := by
  rw [← beq_eq_decide] at cls
  subst cls
  rw [← modifyStats_some here, stuResult, here]
  exact if_neg (not_or.2 ⟨not_not.2 first, counted⟩)

end

/-- Settles O40: a counted result by its class, the site's run and the site's state, then the window. -/
theorem statisticsOfACountedResult : Obligations.StatisticsOfACountedResult := by
  refine ⟨fun n d => ⟨rfl, rfl⟩, fun i k b l d here => ?results,
    fun i k pass l d here => ⟨_, rfl, modifyStats_some here _, fun filling => ?_, fun full => ?_⟩,
    fun k d => ⟨_, _, _, rfl, enabledMask_iff (setSite k .disabling d), uncoveredSites_iff (setSite k .disabling d),
      disableSite_of_armed, disableSite_of_unarmed⟩⟩
  case results =>
    obtain ⟨pass, cls⟩ : ∃ pass, pass = decide (binClass (cfg d) b = some .pass) := ⟨_, rfl⟩
    have counted (first : l.acc.countingPass = 0) (good : b ≠ 0) := stuResult_of_counted (k := k) here first good cls
    refine ⟨pass, countSite k pass l.stats, _, cls, countSite_eq k pass l.stats, rfl, stuResult_of_uncounted here,
      fun first good => ⟨fun isPass => ?_, fun notPass under => ?_,
        fun notPass reached => ⟨fun enabled disable sites => ?_, fun enabled keep => ?_, fun disabling => ?_⟩⟩⟩
    · subst isPass
      exact counted first good
    all_goals
      subst notPass
      rw [counted first good, if_neg Bool.false_ne_true]
    · rw [siteRunCheck_of_under (lotAt_putLot_same ..) (by rw [run_countSite]; exact under)]
    · rw [siteRunCheck_of_disable (lotAt_putLot_same ..) (by rw [run_countSite]; exact reached) enabled
        ⟨disable, sites⟩]
    · rw [siteRunCheck_of_hold (lotAt_putLot_same ..) (by rw [run_countSite]; exact reached) enabled
        fun ⟨disable, sites⟩ => keep.elim (fun off => Bool.false_ne_true (off.symm.trans disable))
          (Nat.not_lt.2 sites)]
    · rw [siteRunCheck_of_disabling (lotAt_putLot_same ..) (by rw [run_countSite]; exact reached) disabling]
  · rw [countWindow_eq here]
    exact if_neg (Nat.not_le.2 filling)
  · rw [countWindow_eq here]
    exact if_pos full

end Sys2Proof.Machine
end
